-- ==== Sys2Proof/Word.lean ====
section
/-! DEFINITION. The machine's word types (00_scope.md R9): every quantity of NCE is unsigned. -/

namespace Sys2Proof

/-- A byte of an external space. -/
abbrev Byte := BitVec 8

/-- `u16`: a checksum. -/
abbrev Half := BitVec 16

/-- `u32`: a register, a key-table entry, a command word. -/
abbrev Word := BitVec 32

/-- `u64`: a block, a boot-code word. -/
abbrev Block := BitVec 64

end Sys2Proof
end

