-- ==== Sys2Proof/Syntax.lean ====
section
/-! DEFINITION. The fourteen commands of NCE (30_encoding.md R93), one constructor per row of the opcode table. -/

namespace Sys2Proof

/-- A command. Format I carries the word index `idx` (R91), a natural number; every other operand
is read from the state. -/
inductive Instr where
  /-- R110: load the key table from the key blob. -/
  | loadkt
  /-- R120: decode the cartridge header. -/
  | dechdr
  /-- R133: encrypt the block register. -/
  | enc
  /-- R134: decrypt the block register. -/
  | dec
  /-- R150: form the title keycode. -/
  | mkkey
  /-- R153: derive the title-specific key table. -/
  | derive
  /-- R172: read and classify the boot code. -/
  | extract
  /-- R175: recompute the two secure-area flags. -/
  | classify
  /-- R176: copy a boot-code word into the block register. -/
  | ldblk (idx : Nat)
  /-- R177: copy the block register into a boot-code word. -/
  | stblk (idx : Nat)
  /-- R200: load the checksum operands from the boot code. -/
  | ckload
  /-- R202: recompute and compare the checksum. -/
  | check
  /-- R178: write the boot code to the output space. -/
  | dump
  /-- R215: put the engine into its reset state. -/
  | reset
  deriving DecidableEq, Repr

end Sys2Proof
end

