-- ==== Sys2Proof/WellFormed.lean ====
section
/-! DEFINITION. Which commands have an encoding: the index of format I is a 24-bit number (30_encoding.md R91). -/

namespace Sys2Proof

/-- R91, R98: `0 <= idx < 2^24`. -/
abbrev idxFits (idx : Nat) : Prop := idx < 2 ^ 24

/-- A command is well formed when its operand fits the field that carries it. -/
abbrev Instr.WellFormed (i : Instr) : Prop :=
  match i with
  | .ldblk idx => idxFits idx
  | .stblk idx => idxFits idx
  | _ => True

end Sys2Proof
end

