-- ==== Sys2Proof/Decode.lean ====
section
/-! DEFINITION. Command words: the decoder, total on all 2^32 words (30_encoding.md R90 to R96), and the encoder. -/

namespace Sys2Proof

/-- Why a word is illegal (R94). -/
inductive DecodeError where
  /-- bits 7:0 are no opcode of R93 -/
  | unknownOpcode (op : Byte)
  /-- a format N opcode with a bit of 31:8 set -/
  | nonzeroUpper (op : Byte)
  deriving DecidableEq, Repr

/-- R90: bits 7:0. -/
def opField (w : Word) : Byte := w.extractLsb' 0 8

/-- R90: bits 31:8, `zero` in format N and `idx` in format I. -/
def upperField (w : Word) : BitVec 24 := w.extractLsb' 8 24

/-- R90, R94: a format N word stands for `i` only when bits 31:8 are 0. -/
def formatN (w : Word) (i : Instr) : Except DecodeError Instr :=
  if upperField w = 0#24 then .ok i else .error (.nonzeroUpper (opField w))

/-- R91: the operand of a format I word, neither scaled nor signed. -/
def idxOperand (w : Word) : Nat := (upperField w).toNat

/-- R93, R94: the command a word stands for, or why it is illegal. -/
def decodeWord (w : Word) : Except DecodeError Instr :=
  match (opField w).toNat with
  | 0x01 => formatN w .loadkt
  | 0x02 => formatN w .dechdr
  | 0x03 => formatN w .enc
  | 0x04 => formatN w .dec
  | 0x05 => formatN w .mkkey
  | 0x06 => formatN w .derive
  | 0x07 => formatN w .extract
  | 0x08 => formatN w .classify
  | 0x09 => .ok (.ldblk (idxOperand w))
  | 0x0A => .ok (.stblk (idxOperand w))
  | 0x0B => formatN w .ckload
  | 0x0C => formatN w .check
  | 0x0D => formatN w .dump
  | 0xFF => formatN w .reset
  | _ => .error (.unknownOpcode (opField w))

/-- The opcode column of R93. -/
def Instr.opcode (i : Instr) : Byte :=
  match i with
  | .loadkt => 0x01#8
  | .dechdr => 0x02#8
  | .enc => 0x03#8
  | .dec => 0x04#8
  | .mkkey => 0x05#8
  | .derive => 0x06#8
  | .extract => 0x07#8
  | .classify => 0x08#8
  | .ldblk _ => 0x09#8
  | .stblk _ => 0x0A#8
  | .ckload => 0x0B#8
  | .check => 0x0C#8
  | .dump => 0x0D#8
  | .reset => 0xFF#8

/-- Bits 31:8 of a command's word: `idx` in format I, 0 in format N (R90). -/
def Instr.upperBits (i : Instr) : BitVec 24 :=
  match i with
  | .ldblk idx => BitVec.ofNat 24 idx
  | .stblk idx => BitVec.ofNat 24 idx
  | _ => 0#24

/-- R90, R98: the word of a command. -/
def encode (i : Instr) : Word := i.upperBits ++ i.opcode

/-- The command the decoder reads from an `nbits`-bit opcode-table word, the bits above being 0. -/
def decodeTableWord (nbits w : Nat) : Option Instr :=
  if w % 2 ^ nbits < 2 ^ 32 then (decodeWord (BitVec.ofNat 32 (w % 2 ^ nbits))).toOption else none

end Sys2Proof
end

