-- ==== Sys2Proof/Config.lean ====
section
/-! DEFINITION. What an NCE fixes from outside (00_scope.md R5, R6): the document's constants, the header
layout of NCE-1, and the open parameters, which have no body here, so that no proof can see their value. -/

namespace Sys2Proof

/-- The cells whose contents are unspecified until something writes them (10_state.md R41, and U19 for a byte of `OUT`). -/
inductive CellName where
  | blkLo
  | blkHi
  | kc (j : Nat)
  | title (j : Nat)
  | gamecode
  | bootOff
  | bootCnt
  | ckEmb
  | kt (i : Nat)
  | bc (k : Nat)
  | out (a : Nat)
  deriving DecidableEq, Repr

/-- The free value: what access number `draw` obtains when it reads, at its internal read `site`, the
cell `c` that nothing has written (R41, U1). A narrower cell takes the low bits. Log entry 1. -/
opaque Config.anyValue (draw site : Nat) (c : CellName) : Block

/-- The parameter `CRC16` (R203, D15): a total function of the bytes alone. Log entry 4. -/
opaque Config.crc16 : List Byte → Half

/-- The open value behind `BC_CAP`. Log entry 5. -/
opaque Config.bcCapFree : Nat

/-- `BC_CAP`, the capacity of the boot-code buffer in words: any value of [256, 2^24] (R6, D18). -/
def Config.bcCap : Nat := max 256 (min Config.bcCapFree (2 ^ 24))

/-- The five layout parameters of the cartridge header (R121, D10). -/
structure Layout where
  hdrSize : Nat
  offTitle : Nat
  offGamecode : Nat
  offBootOff : Nat
  offBootCnt : Nat
  deriving DecidableEq, Repr

/-- The layout of NCE-1 (R6, R121). Log entry 6. -/
def Config.layout : Layout :=
  { hdrSize := 0x200, offTitle := 0x00, offGamecode := 0x0C, offBootOff := 0x20, offBootCnt := 0x2C }

/-- R121: each of the four fields lies inside the record. -/
abbrev Layout.fieldsInside (l : Layout) : Prop :=
  l.offTitle + 12 ≤ l.hdrSize ∧ l.offGamecode + 4 ≤ l.hdrSize ∧
    l.offBootOff + 4 ≤ l.hdrSize ∧ l.offBootCnt + 4 ≤ l.hdrSize

/-- Two byte ranges of a record do not meet. -/
abbrev rangesApart (a m b n : Nat) : Prop := a + m ≤ b ∨ b + n ≤ a

/-- R121: the constraints on any choice of layout. -/
abbrev Layout.WellFormed (l : Layout) : Prop :=
  l.fieldsInside ∧
    rangesApart l.offTitle 12 l.offGamecode 4 ∧ rangesApart l.offTitle 12 l.offBootOff 4 ∧
    rangesApart l.offTitle 12 l.offBootCnt 4 ∧ rangesApart l.offGamecode 4 l.offBootOff 4 ∧
    rangesApart l.offGamecode 4 l.offBootCnt 4 ∧ rangesApart l.offBootOff 4 l.offBootCnt 4

/-- `N_KT` (R5). -/
abbrev Config.ktEntries : Nat := 1042

/-- `KEYBLOB_BYTES` (R5). -/
abbrev Config.keyBlobBytes : Nat := 4168

/-- `SUPPORTED_OFF` (R5): the only boot-code offset EXTRACT accepts. -/
abbrev Config.supportedOff : Nat := 0x4000

/-- `SEC_LO` (R5). -/
abbrev Config.secLo : Nat := 0x4000

/-- `SEC_HI` (R5). -/
abbrev Config.secHi : Nat := 0x8000

/-- `SENTINEL` (R5): the first word of an already-decrypted secure area. -/
abbrev Config.sentinel : Block := 0xE7FFDEFFE7FFDEFF#64

/-- `CK_EMB_POS` (R5). -/
abbrev Config.ckEmbPos : Nat := 14

/-- `CK_START` (R5): the reset value of `CK_OFF`. -/
abbrev Config.ckStart : Word := 16#32

/-- `CK_SLICE` (R5): the required slice length. -/
abbrev Config.ckSlice : Word := 0x7F0#32

end Sys2Proof
end

