-- ==== Sys2Proof/Machine/State.lean ====
section
/-! DEFINITION. The state of NCE (10_state.md R20), its two external inputs and its output space, and the
host's side of the bus, all plain data; the reasons a step can stop; the state after reset (R42). -/

namespace Sys2Proof.Machine

/-- A data register: its value, and whether anything has written it since reset. A read of a register
that nothing has written obtains a free value (R41); `value` is then 0 and no read sees it. Log entries 1, 2. -/
structure Reg (w : Nat) where
  value : BitVec w
  written : Bool
  deriving DecidableEq, Repr

/-- A register nothing has written. -/
abbrev Reg.unwritten {w : Nat} : Reg w := { value := 0#w, written := false }

/-- A register that holds `v`. -/
abbrev Reg.holds {w : Nat} (v : BitVec w) : Reg w := { value := v, written := true }

/-- Cells by index, indices strictly rising; a cell not listed has not been written. -/
abbrev Store (w : Nat) := List (Nat × BitVec w)

/-- A byte-addressed memory, as the host's cells. -/
abbrev Memory := List Host.Cell

/-- An input space (R14, R60): bytes 0 to `len - 1`. A byte below `len` that `cells` does not list is 0. -/
structure Space where
  len : Nat
  cells : Memory
  deriving DecidableEq, Repr

/-- `VALID` (R35), one bit per item of state; bits 31:8 do not exist. -/
structure Valid where
  kt : Bool
  hdr : Bool
  kc : Bool
  bc : Bool
  blk : Bool
  cls : Bool
  ckin : Bool
  ckres : Bool
  deriving DecidableEq, Repr

/-- The three kinds of fault (R230). -/
inductive FaultKind where
  | truncatedInput
  | unsupportedLayout
  | precondition
  deriving DecidableEq, Repr

/-- `FAULT` (R36): the record of the first fault since reset, 0 when there is none. -/
structure FaultRecord where
  code : BitVec 2
  info : Byte
  op : Byte
  deriving DecidableEq, Repr

/-- The mode (R38); `STATUS.FAULTED` is this field. -/
inductive Mode where
  | idle
  | faulted
  deriving DecidableEq, Repr

/-- The host-visible registers (R33). -/
inductive HostReg where
  | cmd
  | status
  | valid
  | fault
  | blkLo
  | blkHi
  | kc0
  | kc1
  | kc2
  | gamecode
  | bootOff
  | bootCnt
  | title0
  | title1
  | title2
  | bcLen
  | ckEmb
  | ckOff
  | ckLen
  | crcCalc
  | outLen
  | kt (i : Nat)
  deriving DecidableEq, Repr

/-- What the host can do to the engine (R77, R217 to R220, R260). Widths are in bits, offsets are byte
offsets into the register space. -/
inductive HostAction where
  /-- a register read -/
  | read (width offset : Nat)
  /-- a register write; a write to `CMD` issues a command -/
  | write (width offset : Nat) (value : Word)
  /-- the host reads a byte of `OUT` -/
  | readOut (address : Nat)
  /-- the platform's reset input (R260) -/
  | hardwareReset
  /-- the host supplies the cartridge image -/
  | supplyImg (bytes : List Byte)
  /-- the host supplies the key-table blob -/
  | supplyKey (bytes : List Byte)
  deriving DecidableEq, Repr

/-- The reasons the machine can stop with a fault. There are none: every failure of NCE is a taken fault
(R230, R236), after which the machine goes on in mode `FAULTED`, and every command ends (R273). -/
inductive Fault where
  deriving DecidableEq, Repr

/-- The reasons a step is refused: the host's action has no meaning in the spec. -/
inductive Refusal where
  /-- Raised by an arm of `exec` whose command has no meaning yet; none is left. Safe. -/
  | notModelled (mnemonic : String)
  /-- Raised by a host access whose width is not 32 bits (R65, R220, U3). Safe. -/
  | badWidth (width : Nat)
  /-- Raised by a host access at an offset that is no multiple of 4 (R65, R220, U3). Safe. -/
  | misalignedOffset (offset : Nat)
  /-- Raised by a host access at an offset R33 does not map (R65, R220, U3). Safe. -/
  | unmappedOffset (offset : Nat)
  /-- Raised when the host changes `IMG` or `KEY` inside a run: a command of the run has read the input, and
  the host goes on accessing the engine in that run (R72, R78, U22). Safe. -/
  | inputChangedInRun
  deriving DecidableEq, Repr

/-- The whole state. Below `mode` stand the environment of the engine (R21, R60) and the model's own
fields, which are the host's side of the bus. -/
structure State where
  /-- `BLK[31:0]` (R22) -/
  blkLo : Reg 32
  /-- `BLK[63:32]` (R22) -/
  blkHi : Reg 32
  /-- `KC[0]` (R23) -/
  kc0 : Reg 32
  /-- `KC[1]` (R23) -/
  kc1 : Reg 32
  /-- `KC[2]` (R23) -/
  kc2 : Reg 32
  /-- `KT[0..1041]` (R27) -/
  kt : Store 32
  /-- `BC[0..BC_CAP-1]` (R29) -/
  bc : Store 64
  /-- `BC_LEN` (R29) -/
  bcLen : Word
  /-- `TITLE0` (R30) -/
  title0 : Reg 32
  /-- `TITLE1` (R30) -/
  title1 : Reg 32
  /-- `TITLE2` (R30) -/
  title2 : Reg 32
  /-- `GAMECODE` (R30) -/
  gamecode : Reg 32
  /-- `BOOT_OFF` (R30) -/
  bootOff : Reg 32
  /-- `BOOT_CNT` (R30) -/
  bootCnt : Reg 32
  /-- `CK_EMB` (R31) -/
  ckEmb : Reg 16
  /-- `CK_OFF` (R31) -/
  ckOff : Word
  /-- `CK_LEN` (R31) -/
  ckLen : Word
  /-- `STATUS.SECURE_PRESENT` (R26) -/
  securePresent : Bool
  /-- `STATUS.SECURE_ENCRYPTED` (R26) -/
  secureEncrypted : Bool
  /-- `STATUS.CRC_MATCH` (R26) -/
  crcMatch : Bool
  /-- `CRC_CALC` (R32) -/
  crcCalc : Half
  /-- `OUT_LEN` (R32) -/
  outLen : Word
  /-- `VALID` (R35) -/
  valid : Valid
  /-- `FAULT` (R36) -/
  fault : FaultRecord
  /-- `STATUS.FAULTED`, the mode (R34, R38) -/
  mode : Mode
  /-- the space `OUT` (R60): the bytes DUMP has written -/
  out : Memory
  /-- the space `IMG` with `IMG_LEN` (R6, R21) -/
  img : Space
  /-- the space `KEY` with `KEY_LEN` (R6, R21) -/
  key : Space
  /-- the host's coming actions, the next one first (R25, R71); the model's own. Log entry 3. -/
  pending : List HostAction
  /-- the value the last host read returned (R217); the model's own. Log entry 7. -/
  readData : Word
  /-- how many host actions were served: the number of the free values' draw; the model's own. Log entry 1. -/
  draws : Nat
  /-- a command has read `IMG` since the last reset (R77, U22); the model's own. Log entry 8. -/
  imgUsed : Bool
  /-- a command has read `KEY` since the last reset (R77, U22); the model's own. Log entry 8. -/
  keyUsed : Bool
  deriving DecidableEq, Repr

/-- What a step answers. -/
abbrev Result := Host.Outcome State Fault Refusal

/-- How a host action is served: as a command word for the decoder, at once, or not at all. -/
inductive Served where
  | command (w : Word) (s : State)
  | done (s : State)
  | refuse (r : Refusal)
  deriving DecidableEq, Repr

/-- All eight bits of `VALID` clear. -/
abbrev Valid.none : Valid :=
  { kt := false, hdr := false, kc := false, bc := false, blk := false, cls := false, ckin := false, ckres := false }

/-- `FAULT = 0` (R36): no fault recorded. -/
abbrev FaultRecord.none : FaultRecord := { code := 0#2, info := 0#8, op := 0#8 }

/-- A space nothing has been supplied for. -/
abbrev Space.empty : Space := { len := 0, cells := [] }

/-- The state after hardware reset (R42, R260), with no input supplied and no host action pending. -/
def State.reset : State where
  blkLo := Reg.unwritten
  blkHi := Reg.unwritten
  kc0 := Reg.unwritten
  kc1 := Reg.unwritten
  kc2 := Reg.unwritten
  kt := []
  bc := []
  bcLen := 0#32
  title0 := Reg.unwritten
  title1 := Reg.unwritten
  title2 := Reg.unwritten
  gamecode := Reg.unwritten
  bootOff := Reg.unwritten
  bootCnt := Reg.unwritten
  ckEmb := Reg.unwritten
  ckOff := Config.ckStart
  ckLen := Config.ckSlice
  securePresent := false
  secureEncrypted := false
  crcMatch := false
  crcCalc := 0#16
  outLen := 0#32
  valid := Valid.none
  fault := FaultRecord.none
  mode := .idle
  out := []
  img := Space.empty
  key := Space.empty
  pending := []
  readData := 0#32
  draws := 0
  imgUsed := false
  keyUsed := false

end Sys2Proof.Machine
end

