-- ==== Sys2Proof/Machine/Ops.lean ====
section
/-! DEFINITION. The named operations over the stores, the spaces and the registers; taking a fault and
leaving it by reset; what the bus does around an access. -/

namespace Sys2Proof.Machine

/-! ### Stores -/

/-- The cell `a` of a store; none when nothing has written it. -/
def Store.lookup {w : Nat} : Store w → Nat → Option (BitVec w)
  | [], _ => none
  | (b, v) :: rest, a => if a = b then some v else if a < b then none else Store.lookup rest a

/-- Write the cell `a`, keeping the indices rising. -/
def Store.put {w : Nat} : Store w → Nat → BitVec w → Store w
  | [], a, v => [(a, v)]
  | (b, u) :: rest, a, v =>
    if a < b then (a, v) :: (b, u) :: rest
    else if a = b then (a, v) :: rest
    else (b, u) :: Store.put rest a v

/-- Write the `n` cells from `start` on, cell `a` with `f a`. -/
def Store.fill {w : Nat} (m : Store w) (start : Nat) : Nat → (Nat → BitVec w) → Store w
  | 0, _ => m
  | n + 1, f => Store.put (Store.fill m (start + 1) n f) start (f start)

/-- The indices of a store rise strictly from `lo` on and stay below `hi`. -/
def Store.risingIn {w : Nat} (lo hi : Nat) : Store w → Bool
  | [] => true
  | (a, _) :: rest => decide (lo ≤ a) && decide (a < hi) && Store.risingIn (a + 1) hi rest

/-- The indices of a store rise strictly. -/
def Store.rising {w : Nat} (lo : Nat) : Store w → Bool
  | [] => true
  | (a, _) :: rest => decide (lo ≤ a) && Store.rising (a + 1) rest

/-- The canonical form of `OUT`: addresses strictly rising. An unlisted address has no value of the
engine's, so every entry differs from it. -/
def Memory.wf (m : Memory) : Bool := Store.rising 0 m

/-! ### Input spaces -/

/-- What an address below the length of an input space reads as when it is not listed. -/
def Space.unlisted : Byte := 0#8

/-- The canonical form of an input space: addresses strictly rising and below the length, and no entry
equal to what an unlisted address reads as. -/
def Space.wf (sp : Space) : Bool :=
  Store.risingIn 0 sp.len sp.cells && sp.cells.all fun c => c.2 != Space.unlisted

/-- `MemRead` of one byte (R14), for an address below the length. -/
def Space.byte (sp : Space) (a : Nat) : Byte := (Store.lookup sp.cells a).getD Space.unlisted

/-- The listed cells of a byte sequence that starts at address `a`. -/
def Space.cellsFrom (a : Nat) : List Byte → Memory
  | [] => []
  | b :: rest =>
    if b = Space.unlisted then Space.cellsFrom (a + 1) rest else (a, b) :: Space.cellsFrom (a + 1) rest

/-- The space that holds a byte sequence (R6: the sequence and its length). -/
def Space.ofBytes (bytes : List Byte) : Space := { len := bytes.length, cells := Space.cellsFrom 0 bytes }

/-! ### Registers -/

/-- The value a read of a register obtains: its own, or the free value `f` when nothing has written
it (R41). -/
def Reg.read {w : Nat} (r : Reg w) (f : Block) : BitVec w := if r.written then r.value else f.setWidth w

/-- The free value of a cell at the present access, first read of it (R41). -/
def free (s : State) (c : CellName) : Block := Config.anyValue s.draws 0 c

def getBlkLo (s : State) : Word := s.blkLo.read (free s .blkLo)
def getBlkHi (s : State) : Word := s.blkHi.read (free s .blkHi)
def getKc0 (s : State) : Word := s.kc0.read (free s (.kc 0))
def getKc1 (s : State) : Word := s.kc1.read (free s (.kc 1))
def getKc2 (s : State) : Word := s.kc2.read (free s (.kc 2))
def getTitle0 (s : State) : Word := s.title0.read (free s (.title 0))
def getTitle1 (s : State) : Word := s.title1.read (free s (.title 1))
def getTitle2 (s : State) : Word := s.title2.read (free s (.title 2))
def getGamecode (s : State) : Word := s.gamecode.read (free s .gamecode)
def getBootOff (s : State) : Word := s.bootOff.read (free s .bootOff)
def getBootCnt (s : State) : Word := s.bootCnt.read (free s .bootCnt)
def getCkEmb (s : State) : Half := s.ckEmb.read (free s .ckEmb)

/-- `BLK` as one 64-bit register (R22). -/
def getBlk (s : State) : Block := getBlkHi s ++ getBlkLo s

/-- `KT[i]` as internal read `site` of access `draw` sees it: the entry, or a free value for an entry
that nothing has written (R41, U1). -/
def ktView (kt : Store 32) (draw site i : Nat) : Word :=
  (Store.lookup kt i).getD ((Config.anyValue draw site (.kt i)).setWidth 32)

/-- `KT[i]` at the present access. -/
def getKt (s : State) (i : Nat) : Word := ktView s.kt s.draws 0 i

/-- `BC[k]` at the present access (R29, R41). -/
def getBc (s : State) (k : Nat) : Block := (Store.lookup s.bc k).getD (free s (.bc k))

/-! ### Taking a fault, and reset -/

/-- `FAULT.CODE` of a kind (R230). -/
def FaultKind.code (k : FaultKind) : BitVec 2 :=
  match k with
  | .truncatedInput => 1#2
  | .unsupportedLayout => 2#2
  | .precondition => 3#2

/-- Fault entry (R236): the record is written and the mode becomes `FAULTED`; nothing else changes.
`op` is bits 7:0 of the command word. -/
def raise (k : FaultKind) (info op : Byte) (s : State) : State :=
  { s with fault := { code := k.code, info := info, op := op }, mode := .faulted }

/-- One line `require holds else raise kind(info)` of a command's pseudocode (R16). -/
structure Requirement where
  holds : Bool
  kind : FaultKind
  info : Byte
  deriving DecidableEq, Repr

/-- The first `require` that fails, in the order listed (R242). -/
def firstFailure : List Requirement → Option Requirement
  | [] => none
  | r :: rest => if r.holds then firstFailure rest else some r

/-- A command with opcode `op` (R38, R237, R242): ignored in mode `FAULTED`; in mode `IDLE` the first
requirement that fails is raised before anything is written, and the effect happens when none fails. -/
def command (op : Byte) (requirements : State → List Requirement) (effect : State → State) (s : State) :
    Result :=
  match s.mode with
  | .faulted => .next s
  | .idle =>
    match firstFailure (requirements s) with
    | none => .next (effect s)
    | some r => .next (raise r.kind r.info op s)

/-- Reset (R42, R215, R260), by the RESET command and by the hardware input alike: what R42 gives a
value has it, the data becomes unspecified, and `OUT`, `IMG`, `KEY` are not touched. A new run begins. -/
def resetEngine (s : State) : State :=
  { State.reset with
    out := s.out
    img := s.img
    key := s.key
    pending := s.pending
    readData := s.readData
    draws := s.draws }

/-- An illegal command word (R94, R233): `Precondition(1)` in mode `IDLE`, ignored in mode `FAULTED`. -/
def illegalCommand (w : Word) (s : State) : Result :=
  match s.mode with
  | .faulted => .next s
  | .idle => .next (raise .precondition 1#8 (opField w) s)

/-! ### Around an access -/

/-- The bus takes up the host's next action: it leaves `rest` to come and starts a new draw. -/
def accept (rest : List HostAction) (s : State) : State :=
  { s with pending := rest, draws := s.draws + 1 }

/-- The commands that read `IMG` (R60). -/
def readsImg (i : Instr) : Bool :=
  match i with
  | .dechdr => true
  | .extract => true
  | _ => false

/-- The commands that read `KEY` (R60). -/
def readsKey (i : Instr) : Bool :=
  match i with
  | .loadkt => true
  | _ => false

/-- In mode `IDLE` a command that reads an input space fixes that input for the run (R72, R77). -/
def noteInputs (i : Instr) (s : State) : State :=
  match s.mode with
  | .idle => { s with imgUsed := s.imgUsed || readsImg i, keyUsed := s.keyUsed || readsKey i }
  | .faulted => s

end Sys2Proof.Machine
end

