-- ==== Sys2Proof/Machine/Operands.lean ====
section
/-! DEFINITION. Operand forms: halves of a block, little-endian assembly, the byte swap, and the byte view
of the boot code (00_scope.md R8, R11, R12; 44_bootcode.md R171). -/

namespace Sys2Proof.Machine

/-- Bits 31:0 of a block (R8, R63). -/
def loHalf (b : Block) : Word := b.extractLsb' 0 32

/-- Bits 63:32 of a block (R8, R63). -/
def hiHalf (b : Block) : Word := b.extractLsb' 32 32

/-- `BLK <- b`: both halves hold a value afterwards (R22). -/
def setBlk (b : Block) (s : State) : State :=
  { s with blkLo := Reg.holds (loHalf b), blkHi := Reg.holds (hiHalf b) }

/-- `zext_64` (R10). -/
def zext64 (a : Word) : Block := a.setWidth 64

/-- `le16` (R12). -/
def le16 (b0 b1 : Byte) : Half := b1 ++ b0

/-- `le32` (R12). -/
def le32 (b0 b1 b2 b3 : Byte) : Word := b3 ++ b2 ++ b1 ++ b0

/-- `le64` (R12). -/
def le64 (b0 b1 b2 b3 b4 b5 b6 b7 : Byte) : Block := b7 ++ b6 ++ b5 ++ b4 ++ b3 ++ b2 ++ b1 ++ b0

/-- Byte `j` of a block, byte 0 the least significant: entry `j` of `bytes_le(b, 8)` (R12). -/
def blockByte (b : Block) (j : Nat) : Byte := b.extractLsb' (8 * j) 8

/-- `bswap32` (R11): the four bytes in reverse order. -/
def bswap32 (v : Word) : Word :=
  v.extractLsb' 0 8 ++ v.extractLsb' 8 8 ++ v.extractLsb' 16 8 ++ v.extractLsb' 24 8

/-- The little-endian `u32` at address `a` of an input space (R12, R62). -/
def Space.word (sp : Space) (a : Nat) : Word :=
  le32 (sp.byte a) (sp.byte (a + 1)) (sp.byte (a + 2)) (sp.byte (a + 3))

/-- The little-endian `u64` at address `a` of an input space (R12, R62). -/
def Space.block (sp : Space) (a : Nat) : Block :=
  le64 (sp.byte a) (sp.byte (a + 1)) (sp.byte (a + 2)) (sp.byte (a + 3)) (sp.byte (a + 4))
    (sp.byte (a + 5)) (sp.byte (a + 6)) (sp.byte (a + 7))

/-- `BCbyte(j)` (R171). -/
def bcByte (s : State) (j : Nat) : Byte := blockByte (getBc s (j / 8)) (j % 8)

/-- `BCbytes(a, n)` (R171). -/
def bcBytes (s : State) (a n : Nat) : List Byte := (List.range n).map fun j => bcByte s (a + j)

/-- The word of the boot code that EXTRACT reads for index `k` (R172). -/
def imgBootWord (s : State) (k : Nat) : Block := s.img.block (Config.supportedOff + 8 * k)

end Sys2Proof.Machine
end

