-- ==== Sys2Proof/Machine/Flags.lean ====
section
/-! DEFINITION. The result flags (10_state.md R26; 44_bootcode.md R174; 45_checksum.md R202) and the words
the host sees of `STATUS`, `VALID` and `FAULT` (R34 to R36). -/

namespace Sys2Proof.Machine

/-- `present` of `classify` (R174): the offset lies in [0x4000, 0x8000), compared unsigned. -/
def secureAreaPresent (off : Word) : Bool :=
  decide (Config.secLo ≤ off.toNat) && decide (off.toNat < Config.secHi)

/-- `encrypted` of `classify` (R174): the first word is not the sentinel. -/
def secureAreaEncrypted (w0 : Block) : Bool := decide (w0 ≠ Config.sentinel)

/-- `CRC_MATCH` (R202). -/
def checksumMatches (computed embedded : Half) : Bool := decide (computed = embedded)

/-- `STATUS` (R34): bits 31:4 read 0. -/
def statusWord (s : State) : Word :=
  0#28 ++ BitVec.ofBool s.crcMatch ++ BitVec.ofBool s.secureEncrypted ++
    BitVec.ofBool s.securePresent ++ BitVec.ofBool (decide (s.mode = .faulted))

/-- `VALID` (R35): bits 31:8 read 0. -/
def validWord (v : Valid) : Word :=
  0#24 ++ BitVec.ofBool v.ckres ++ BitVec.ofBool v.ckin ++ BitVec.ofBool v.cls ++ BitVec.ofBool v.blk ++
    BitVec.ofBool v.bc ++ BitVec.ofBool v.kc ++ BitVec.ofBool v.hdr ++ BitVec.ofBool v.kt

/-- A host write to `VALID` (R35, R218): bits 4:0 and 6 are replaced, bits 5 and 7 stay. -/
def Valid.hostWrite (v : Valid) (x : Word) : Valid :=
  { kt := x.getLsbD 0
    hdr := x.getLsbD 1
    kc := x.getLsbD 2
    bc := x.getLsbD 3
    blk := x.getLsbD 4
    cls := v.cls
    ckin := x.getLsbD 6
    ckres := v.ckres }

/-- `FAULT` (R36): bits 7:2 and 31:24 read 0. -/
def faultWord (f : FaultRecord) : Word := 0#8 ++ f.op ++ f.info ++ 0#6 ++ f.code

end Sys2Proof.Machine
end

