-- ==== Sys2Proof/Machine/BootCode.lean ====
section
/-! DEFINITION. The boot-code extractor, the classifier, block movement and the dump: EXTRACT, CLASSIFY, LDBLK,
STBLK, DUMP (44_bootcode.md). -/

namespace Sys2Proof.Machine

/-- The tests of EXTRACT in the order of R242; the length of the region is a natural number (R9, D23). -/
def needsExtract (s : State) : List Requirement :=
  [⟨s.valid.hdr, .precondition, 2#8⟩,
    ⟨decide ((getBootOff s).toNat = Config.supportedOff), .unsupportedLayout, 1#8⟩,
    ⟨decide (1 ≤ (getBootCnt s).toNat), .precondition, 6#8⟩,
    ⟨decide ((getBootCnt s).toNat ≤ Config.bcCap), .precondition, 5#8⟩,
    ⟨decide (Config.supportedOff + 8 * (getBootCnt s).toNat ≤ s.img.len), .truncatedInput, 3#8⟩]

def effectExtract (s : State) : State :=
  { s with
    bc := Store.fill s.bc 0 (getBootCnt s).toNat (imgBootWord s)
    bcLen := getBootCnt s
    securePresent := secureAreaPresent (getBootOff s)
    secureEncrypted := secureAreaEncrypted (imgBootWord s 0)
    valid := { s.valid with bc := true, cls := true } }

/-- EXTRACT (R172). -/
def execExtract (s : State) : Result := command Instr.extract.opcode needsExtract effectExtract s

def needsClassify (s : State) : List Requirement :=
  [⟨s.valid.hdr && s.valid.bc, .precondition, 2#8⟩,
    ⟨decide (1 ≤ s.bcLen.toNat), .precondition, 6#8⟩]

def effectClassify (s : State) : State :=
  { s with
    securePresent := secureAreaPresent (getBootOff s)
    secureEncrypted := secureAreaEncrypted (getBc s 0)
    valid := { s.valid with cls := true } }

/-- CLASSIFY (R175). -/
def execClassify (s : State) : Result := command Instr.classify.opcode needsClassify effectClassify s

def needsLdblk (idx : Nat) (s : State) : List Requirement :=
  [⟨s.valid.bc, .precondition, 2#8⟩, ⟨decide (idx < s.bcLen.toNat), .precondition, 4#8⟩]

def effectLdblk (idx : Nat) (s : State) : State :=
  setBlk (getBc s idx) { s with valid := { s.valid with blk := true } }

/-- LDBLK idx (R176). -/
def execLdblk (idx : Nat) (s : State) : Result :=
  command (Instr.ldblk idx).opcode (needsLdblk idx) (effectLdblk idx) s

def needsStblk (idx : Nat) (s : State) : List Requirement :=
  [⟨s.valid.bc && s.valid.blk, .precondition, 2#8⟩, ⟨decide (idx < s.bcLen.toNat), .precondition, 4#8⟩]

def effectStblk (idx : Nat) (s : State) : State := { s with bc := Store.put s.bc idx (getBlk s) }

/-- STBLK idx (R177). -/
def execStblk (idx : Nat) (s : State) : Result :=
  command (Instr.stblk idx).opcode (needsStblk idx) (effectStblk idx) s

def needsDump (s : State) : List Requirement := [⟨s.valid.bc, .precondition, 2#8⟩]

/-- `OUT[j] = BCbyte(j)` for every byte of the boot code; bytes beyond it are not touched (R178). -/
def effectDump (s : State) : State :=
  { s with
    out := Store.fill s.out 0 (8 * s.bcLen.toNat) (bcByte s)
    outLen := BitVec.ofNat 32 (8 * s.bcLen.toNat) }

/-- DUMP (R178). -/
def execDump (s : State) : Result := command Instr.dump.opcode needsDump effectDump s

end Sys2Proof.Machine
end

