-- ==== Sys2Proof/Machine/Checksum.lean ====
section
/-! DEFINITION. The checksum validator: CKLOAD, CHECK (45_checksum.md), over the parameter `CRC16`. -/

namespace Sys2Proof.Machine

def needsCkload (s : State) : List Requirement :=
  [⟨s.valid.bc, .precondition, 2#8⟩, ⟨decide (2 ≤ s.bcLen.toNat), .precondition, 4#8⟩]

def effectCkload (s : State) : State :=
  { s with
    ckEmb := Reg.holds (le16 (bcByte s Config.ckEmbPos) (bcByte s (Config.ckEmbPos + 1)))
    ckOff := Config.ckStart
    ckLen := Config.ckSlice
    valid := { s.valid with ckin := true } }

/-- CKLOAD (R200): the embedded checksum from boot-code bytes 14 and 15, and the document's slice. -/
def execCkload (s : State) : Result := command Instr.ckload.opcode needsCkload effectCkload s

/-- The recomputed checksum (R202). -/
def sliceChecksum (s : State) : Half := Config.crc16 (bcBytes s s.ckOff.toNat Config.ckSlice.toNat)

/-- The length is tested before the range, and the range as a natural number (R202, R242). -/
def needsCheck (s : State) : List Requirement :=
  [⟨s.valid.bc && s.valid.ckin, .precondition, 2#8⟩,
    ⟨decide (s.ckLen = Config.ckSlice), .precondition, 3#8⟩,
    ⟨decide (s.ckOff.toNat + s.ckLen.toNat ≤ 8 * s.bcLen.toNat), .precondition, 4#8⟩]

/-- A mismatch is recorded and is no fault (R202, R234). -/
def effectCheck (s : State) : State :=
  { s with
    crcCalc := sliceChecksum s
    crcMatch := checksumMatches (sliceChecksum s) (getCkEmb s)
    valid := { s.valid with ckres := true } }

/-- CHECK (R202). -/
def execCheck (s : State) : Result := command Instr.check.opcode needsCheck effectCheck s

/-- One bit of `CRC16_REC` (R203). -/
def crcBit (c : Half) : Half := if c.getLsbD 0 then (c >>> 1) ^^^ 0xA001#16 else c >>> 1

/-- One byte of `CRC16_REC` (R203): eight bits after the byte went into the low half. -/
def crcByte (c : Half) (v : Byte) : Half :=
  crcBit (crcBit (crcBit (crcBit (crcBit (crcBit (crcBit (crcBit (c ^^^ v.setWidth 16))))))))

/-- `CRC16_REC` (R203, GK2), the recommended instantiation of the parameter. No command uses it. -/
def crc16Rec (bytes : List Byte) : Half := bytes.foldl crcByte 0xFFFF#16

end Sys2Proof.Machine
end

