-- ==== Sys2Proof/Machine/Cipher.lean ====
section
/-! DEFINITION. The block cipher core: `F`, `Crypt`, ENC, DEC (42_cipher_core.md). -/

namespace Sys2Proof.Machine

/-- A key table as the cipher reads it. -/
abbrev Table := Nat → Word

/-- The direction of the block function (R132). -/
inductive Dir where
  | enc
  | dec
  deriving DecidableEq, Repr

/-- The round function `F` (R131). -/
def roundF (T : Table) (z : Word) : Word :=
  ((T (18 + (z.extractLsb' 24 8).toNat) + T (274 + (z.extractLsb' 16 8).toNat)) ^^^
      T (530 + (z.extractLsb' 8 8).toNat)) +
    T (786 + (z.extractLsb' 0 8).toNat)

/-- One round with subkey index `i` on the pair `(x, y)` (R132). -/
def cipherRound (T : Table) (i : Nat) (p : Word × Word) : Word × Word :=
  (p.2 ^^^ roundF T (T i ^^^ p.1), T i ^^^ p.1)

/-- The sixteen round indices of a direction (R132). -/
def roundOrder (dir : Dir) : List Nat :=
  match dir with
  | .enc => [0, 1, 2, 3, 4, 5, 6, 7, 8, 9, 10, 11, 12, 13, 14, 15]
  | .dec => [17, 16, 15, 14, 13, 12, 11, 10, 9, 8, 7, 6, 5, 4, 3, 2]

/-- The rounds with the indices listed; round number `r` reads the table as `rd r` shows it. -/
def cipherRounds (rd : Nat → Table) (order : List Nat) (r : Nat) (p : Word × Word) : Word × Word :=
  match order with
  | [] => p
  | i :: rest => cipherRounds rd rest (r + 1) (cipherRound (rd r) i p)

/-- The finalisation and the reassembly (R132): the result has `x` in bits 63:32 and `y` in bits 31:0. -/
def cipherFinish (T : Table) (dir : Dir) (p : Word × Word) : Block :=
  match dir with
  | .enc => (p.1 ^^^ T 17) ++ (p.2 ^^^ T 16)
  | .dec => (p.1 ^^^ T 0) ++ (p.2 ^^^ T 1)

/-- The block function over a table that is read seventeen times, once a round and once at the end:
no entry is read twice within one of these, and an entry that nothing has written may read
differently in two of them (R41). -/
def cryptReads (rd : Nat → Table) (b : Block) (dir : Dir) : Block :=
  cipherFinish (rd 16) dir (cipherRounds rd (roundOrder dir) 0 (loHalf b, hiHalf b))

/-- `Crypt(T, b, dir)` (R132). -/
def crypt (T : Table) (b : Block) (dir : Dir) : Block := cryptReads (fun _ => T) b dir

/-- `Crypt` number `n` of a command, over the key table `kt` at access `draw`. -/
def cryptKt (kt : Store 32) (draw n : Nat) (b : Block) (dir : Dir) : Block :=
  cryptReads (fun r => ktView kt draw (17 * n + r)) b dir

def needsCipher (s : State) : List Requirement :=
  [⟨s.valid.kt && s.valid.blk, .precondition, 2#8⟩]

/-- `BLK <- Crypt(KT, BLK, dir)` (R133, R134). -/
def effectCipher (dir : Dir) (s : State) : State := setBlk (cryptKt s.kt s.draws 0 (getBlk s) dir) s

/-- ENC (R133): encrypt `BLK` in place. -/
def execEnc (s : State) : Result := command Instr.enc.opcode needsCipher (effectCipher .enc) s

/-- DEC (R134): decrypt `BLK` in place. -/
def execDec (s : State) : Result := command Instr.dec.opcode needsCipher (effectCipher .dec) s

end Sys2Proof.Machine
end

