-- ==== Sys2Proof/Machine/Header.lean ====
section
/-! DEFINITION. The cartridge header decoder: DECHDR (41_header_decoder.md), over the layout parameters. -/

namespace Sys2Proof.Machine

def needsDechdr (l : Layout) (s : State) : List Requirement :=
  [⟨decide (l.hdrSize ≤ s.img.len), .truncatedInput, 2#8⟩]

/-- The four fields of interest, each from its own bytes (R120, R122). -/
def effectDechdr (l : Layout) (s : State) : State :=
  { s with
    title0 := Reg.holds (s.img.word l.offTitle)
    title1 := Reg.holds (s.img.word (l.offTitle + 4))
    title2 := Reg.holds (s.img.word (l.offTitle + 8))
    gamecode := Reg.holds (s.img.word l.offGamecode)
    bootOff := Reg.holds (s.img.word l.offBootOff)
    bootCnt := Reg.holds (s.img.word l.offBootCnt)
    valid := { s.valid with hdr := true } }

/-- DECHDR for any layout (R120, R121). -/
def decodeHeader (l : Layout) (s : State) : Result :=
  command Instr.dechdr.opcode (needsDechdr l) (effectDechdr l) s

/-- DECHDR (R120) with the layout of NCE-1. -/
def execDechdr (s : State) : Result := decodeHeader Config.layout s

end Sys2Proof.Machine
end

