-- ==== Sys2Proof/Machine/KeySchedule.lean ====
section
/-! DEFINITION. The title keycode and the key-schedule deriver: MKKEY, DERIVE (43_key_schedule.md). -/

namespace Sys2Proof.Machine

def needsMkkey (s : State) : List Requirement := [⟨s.valid.hdr, .precondition, 2#8⟩]

def effectMkkey (s : State) : State :=
  { s with
    kc0 := Reg.holds (getGamecode s)
    kc1 := Reg.holds (getGamecode s >>> 1)
    kc2 := Reg.holds (getGamecode s <<< 1)
    valid := { s.valid with kc := true } }

/-- MKKEY (R150): the keycode `{c, c >> 1, c << 1}` of the game code. -/
def execMkkey (s : State) : Result := command Instr.mkkey.opcode needsMkkey effectMkkey s

/-- Step 1 of DERIVE for one keycode word (R153): the low half of the ciphertext of the zero-extended
word. `n` numbers the encryption within the command. -/
def keycodeWord (kt : Store 32) (draw n : Nat) (kc : Word) : Word :=
  loHalf (cryptKt kt draw n (zext64 kc) .enc)

/-- Step 2 of DERIVE (R153, D12): entries 0 to 11 take the byte-swapped keycode words in turn. -/
def foldKeycode (kt : Store 32) (draw : Nat) (kc0 kc1 : Word) : Store 32 :=
  Store.fill kt 0 12 fun i => ktView kt draw (17 * 2) i ^^^ bswap32 (if i % 2 = 0 then kc0 else kc1)

/-- Step 3 of DERIVE (R153, D14): `count` more iterations from entry `i` on, `S` the scratch block so far.
Every iteration encrypts with the table as the earlier ones left it. -/
def refill (draw : Nat) (count i : Nat) (S : Block) (kt : Store 32) : Store 32 :=
  match count with
  | 0 => kt
  | c + 1 =>
    refill draw c (i + 2) (cryptKt kt draw (3 + i / 2) S .enc)
      (Store.put
        (Store.put kt i (hiHalf (cryptKt kt draw (3 + i / 2) S .enc)))
        (i + 1) (loHalf (cryptKt kt draw (3 + i / 2) S .enc)))

/-- The table DERIVE leaves (R153), from the keycode words of step 1. -/
def deriveTable (kt : Store 32) (draw : Nat) (kc0 kc1 : Word) : Store 32 :=
  refill draw 66 0 0#64 (foldKeycode kt draw kc0 kc1)

/-- `KC[0]` after step 1 (R153). -/
def derivedKc0 (s : State) : Word := keycodeWord s.kt s.draws 1 (getKc0 s)

/-- `KC[1]` after step 1 (R153): word 1 is encrypted first, with the same unmutated table. -/
def derivedKc1 (s : State) : Word := keycodeWord s.kt s.draws 0 (getKc1 s)

def needsDerive (s : State) : List Requirement :=
  [⟨s.valid.kt && s.valid.kc, .precondition, 2#8⟩]

def effectDerive (s : State) : State :=
  { s with
    kc0 := Reg.holds (derivedKc0 s)
    kc1 := Reg.holds (derivedKc1 s)
    kt := deriveTable s.kt s.draws (derivedKc0 s) (derivedKc1 s) }

/-- DERIVE (R153). -/
def execDerive (s : State) : Result := command Instr.derive.opcode needsDerive effectDerive s

end Sys2Proof.Machine
end

