-- ==== Sys2Proof/Machine/KeyTable.lean ====
section
/-! DEFINITION. The key-table loader: LOADKT (40_keytable_loader.md). -/

namespace Sys2Proof.Machine

def needsLoadkt (s : State) : List Requirement :=
  [⟨decide (Config.keyBlobBytes ≤ s.key.len), .truncatedInput, 1#8⟩]

def effectLoadkt (s : State) : State :=
  { s with
    kt := Store.fill s.kt 0 Config.ktEntries fun i => s.key.word (4 * i)
    valid := { s.valid with kt := true } }

/-- LOADKT (R110): all 1042 entries from the start of the key blob. -/
def execLoadkt (s : State) : Result := command Instr.loadkt.opcode needsLoadkt effectLoadkt s

end Sys2Proof.Machine
end

