-- ==== Sys2Proof/Machine/System.lean ====
section
/-! DEFINITION. The system command: RESET (46_system.md). -/

namespace Sys2Proof.Machine

/-- RESET (R215): accepted in both modes; it cannot fault. -/
def execReset (s : State) : Result := .next (resetEngine s)

end Sys2Proof.Machine
end

