-- ==== Sys2Proof/Machine/Dispatch.lean ====
section
/-! DEFINITION. The one dispatch from a command to its meaning. -/

namespace Sys2Proof.Machine

def exec (i : Instr) (s : State) : Host.Outcome State Fault Refusal :=
  match i with
  | .loadkt => Sys2Proof.Machine.execLoadkt s
  | .dechdr => Sys2Proof.Machine.execDechdr s
  | .enc => Sys2Proof.Machine.execEnc s
  | .dec => Sys2Proof.Machine.execDec s
  | .mkkey => Sys2Proof.Machine.execMkkey s
  | .derive => Sys2Proof.Machine.execDerive s
  | .extract => Sys2Proof.Machine.execExtract s
  | .classify => Sys2Proof.Machine.execClassify s
  | .ldblk idx => Sys2Proof.Machine.execLdblk idx s
  | .stblk idx => Sys2Proof.Machine.execStblk idx s
  | .ckload => Sys2Proof.Machine.execCkload s
  | .check => Sys2Proof.Machine.execCheck s
  | .dump => Sys2Proof.Machine.execDump s
  | .reset => Sys2Proof.Machine.execReset s

end Sys2Proof.Machine
end

