-- ==== Sys2Proof/Machine/HostAccess.lean ====
section
/-! DEFINITION. The host's side: the register map, reads and writes of registers, reset by the platform, and
the supply of the inputs (10_state.md R33; 20_memory.md R65, R67, R77; 46_system.md R217 to R220). -/

namespace Sys2Proof.Machine

/-- The register map of R33, for an offset that is a multiple of 4. -/
def mappedReg (offset : Nat) : Option HostReg :=
  match offset with
  | 0x000 => some .cmd
  | 0x004 => some .status
  | 0x008 => some .valid
  | 0x00C => some .fault
  | 0x010 => some .blkLo
  | 0x014 => some .blkHi
  | 0x018 => some .kc0
  | 0x01C => some .kc1
  | 0x020 => some .kc2
  | 0x024 => some .gamecode
  | 0x028 => some .bootOff
  | 0x02C => some .bootCnt
  | 0x030 => some .title0
  | 0x034 => some .title1
  | 0x038 => some .title2
  | 0x03C => some .bcLen
  | 0x040 => some .ckEmb
  | 0x044 => some .ckOff
  | 0x048 => some .ckLen
  | 0x04C => some .crcCalc
  | 0x050 => some .outLen
  | o =>
    if 0x1000 ≤ o ∧ o < 0x1000 + 4 * Config.ktEntries then some (.kt ((o - 0x1000) / 4)) else none

/-- The register an access reaches, or why it has no meaning (R65, R220). -/
def resolveAccess (width offset : Nat) : Except Refusal HostReg :=
  if width ≠ 32 then .error (.badWidth width)
  else if offset % 4 ≠ 0 then .error (.misalignedOffset offset)
  else
    match mappedReg offset with
    | some r => .ok r
    | none => .error (.unmappedOffset offset)

/-- What a read of a register returns (R217). -/
def readReg (r : HostReg) (s : State) : Word :=
  match r with
  | .cmd => 0#32
  | .status => statusWord s
  | .valid => validWord s.valid
  | .fault => faultWord s.fault
  | .blkLo => getBlkLo s
  | .blkHi => getBlkHi s
  | .kc0 => getKc0 s
  | .kc1 => getKc1 s
  | .kc2 => getKc2 s
  | .gamecode => getGamecode s
  | .bootOff => getBootOff s
  | .bootCnt => getBootCnt s
  | .title0 => getTitle0 s
  | .title1 => getTitle1 s
  | .title2 => getTitle2 s
  | .bcLen => s.bcLen
  | .ckEmb => (getCkEmb s).setWidth 32
  | .ckOff => s.ckOff
  | .ckLen => s.ckLen
  | .crcCalc => s.crcCalc.setWidth 32
  | .outLen => s.outLen
  | .kt i => getKt s i

/-- What a write of `v` to a register other than `CMD` does in mode `IDLE` (R218). -/
def writeReg (r : HostReg) (v : Word) (s : State) : State :=
  match r with
  | .cmd => s
  | .status => s
  | .valid => { s with valid := s.valid.hostWrite v }
  | .fault => s
  | .blkLo => { s with blkLo := Reg.holds v }
  | .blkHi => { s with blkHi := Reg.holds v }
  | .kc0 => { s with kc0 := Reg.holds v }
  | .kc1 => { s with kc1 := Reg.holds v }
  | .kc2 => { s with kc2 := Reg.holds v }
  | .gamecode => { s with gamecode := Reg.holds v }
  | .bootOff => { s with bootOff := Reg.holds v }
  | .bootCnt => { s with bootCnt := Reg.holds v }
  | .title0 => { s with title0 := Reg.holds v }
  | .title1 => { s with title1 := Reg.holds v }
  | .title2 => { s with title2 := Reg.holds v }
  | .bcLen => if v.toNat ≤ Config.bcCap then { s with bcLen := v } else s
  | .ckEmb => { s with ckEmb := Reg.holds (v.setWidth 16) }
  | .ckOff => { s with ckOff := v }
  | .ckLen => { s with ckLen := v }
  | .crcCalc => s
  | .outLen => s
  | .kt i => { s with kt := Store.put s.kt i v }

/-- A register write as the mode lets it through (R218, R219). -/
def hostWrite (r : HostReg) (v : Word) (s : State) : State :=
  match s.mode with
  | .idle => writeReg r v s
  | .faulted => s

/-- The byte of `OUT` the host finds (R77, U19): what DUMP wrote below `OUT_LEN`, a free value elsewhere. -/
def outByte (s : State) (a : Nat) : Byte :=
  if a < s.outLen.toNat then (Store.lookup s.out a).getD ((free s (.out a)).setWidth 8)
  else (free s (.out a)).setWidth 8

/-- The bus hands a read value to the host. -/
def returnRead (v : Word) (s : State) : State := { s with readData := v }

/-- The host's image becomes `IMG` (R77). -/
def supplyImage (bytes : List Byte) (s : State) : State := { s with img := Space.ofBytes bytes }

/-- The host's key blob becomes `KEY` (R77). -/
def supplyBlob (bytes : List Byte) (s : State) : State := { s with key := Space.ofBytes bytes }

/-- The action resets the engine: the platform's input, or the exact RESET word (R95, R260). -/
def resets (a : HostAction) : Bool :=
  match a with
  | .hardwareReset => true
  | .write width offset v => decide (width = 32 ∧ offset = 0x000 ∧ v = 0x000000FF#32)
  | .read _ _ => false
  | .readOut _ => false
  | .supplyImg _ => false
  | .supplyKey _ => false

/-- The action is an access to the engine's registers (R60, R67). -/
def accessesEngine (a : HostAction) : Bool :=
  match a with
  | .read _ _ => true
  | .write _ _ _ => true
  | .readOut _ => false
  | .hardwareReset => false
  | .supplyImg _ => false
  | .supplyKey _ => false

/-- The run has ended (R78): a fault has put the engine in mode `FAULTED`, or the host issues no further
access before the next reset. `coming` is what the host still does. -/
def runEnded (m : Mode) (coming : List HostAction) : Bool :=
  match m with
  | .faulted => true
  | .idle => (coming.takeWhile fun a => !resets a).all fun a => !accessesEngine a

/-- The host may make `new` the input that is `old` (R72, R77, R78, R262, U22): before the first command of
the run that reads it, after the run, or when that changes nothing. -/
def supplyAllowed (used : Bool) (old new : Space) (s : State) : Bool :=
  !used || runEnded s.mode s.pending || decide (new = old)

/-- Serve one host action (R77): a write to `CMD` goes to the decoder, everything else is done here. -/
def serve (a : HostAction) (s : State) : Served :=
  match a with
  | .read width offset =>
    match resolveAccess width offset with
    | .ok r => .done (returnRead (readReg r s) s)
    | .error e => .refuse e
  | .write width offset v =>
    match resolveAccess width offset with
    | .ok .cmd => .command v s
    | .ok r => .done (hostWrite r v s)
    | .error e => .refuse e
  | .readOut a => .done (returnRead ((outByte s a).setWidth 32) s)
  | .hardwareReset => .done (resetEngine s)
  | .supplyImg bytes =>
    if supplyAllowed s.imgUsed s.img (Space.ofBytes bytes) s then .done (supplyImage bytes s)
    else .refuse .inputChangedInRun
  | .supplyKey bytes =>
    if supplyAllowed s.keyUsed s.key (Space.ofBytes bytes) s then .done (supplyBlob bytes s)
    else .refuse .inputChangedInRun

end Sys2Proof.Machine
end

