-- ==== Sys2Proof/Machine/Step.lean ====
section
/-! DEFINITION. One step: the engine serves the host's next action (10_state.md R25; 20_memory.md R70, R71). -/

namespace Sys2Proof.Machine

/-- A word written to `CMD` (R93, R94): the command it stands for is executed; an illegal word faults. -/
def runCommand (w : Word) (s : State) : Result :=
  match decodeWord w with
  | .ok i => exec i (noteInputs i s)
  | .error _ => illegalCommand w s

/-- One step. With no host action to serve the engine waits, and nothing changes (R246). -/
def step (s : State) : Host.Outcome State Fault Refusal :=
  match s.pending with
  | [] => .next s
  | a :: rest =>
    match serve a (accept rest s) with
    | .command w t => runCommand w t
    | .done t => .next t
    | .refuse r => .refused r

/-- The host's next action becomes the write of the `nbits`-bit word `w` to `CMD`. Log entry 3. -/
def State.withFetchWord (s : State) (nbits w : Nat) : State :=
  { s with pending := .write 32 0x000 (BitVec.ofNat 32 (w % 2 ^ nbits)) :: s.pending }

end Sys2Proof.Machine
end

