-- ==== Sys2Proof/Safety.lean ====
section
/-! DEFINITION. The terms the claims use: the legal fault records, the invariant every step keeps, the host
actions that have a meaning, that reset or that issue a command, when the host is done with a run, the number
little-endian bytes stand for, and DERIVE over a pure table. -/

namespace Sys2Proof.Machine

/-- The opcodes a `Precondition(2)` can come from (R230). -/
abbrev validBitOps : List Byte :=
  [0x03#8, 0x04#8, 0x05#8, 0x06#8, 0x07#8, 0x08#8, 0x09#8, 0x0A#8, 0x0B#8, 0x0C#8, 0x0D#8]

/-- The rows of R230: the pair (`CODE`, `INFO`) and the commands that raise it. An illegal word may have
any low byte. -/
def legalFault (f : FaultRecord) : Bool :=
  match f.code.toNat, f.info.toNat with
  | 1, 1 => decide (f.op = 0x01#8)
  | 1, 2 => decide (f.op = 0x02#8)
  | 1, 3 => decide (f.op = 0x07#8)
  | 2, 1 => decide (f.op = 0x07#8)
  | 3, 1 => true
  | 3, 2 => decide (f.op ∈ validBitOps)
  | 3, 3 => decide (f.op = 0x0C#8)
  | 3, 4 => decide (f.op ∈ [0x09#8, 0x0A#8, 0x0B#8, 0x0C#8])
  | 3, 5 => decide (f.op = 0x07#8)
  | 3, 6 => decide (f.op ∈ [0x07#8, 0x08#8])
  | _, _ => false

/-- The record and the mode agree (R34, R36, R38): no record in mode `IDLE`, a row of R230 in mode `FAULTED`. -/
def faultConsistent (m : Mode) (f : FaultRecord) : Bool :=
  match m with
  | .idle => decide (f = FaultRecord.none)
  | .faulted => legalFault f

/-- What holds at reset and after every step. -/
structure EngineInvariant (s : State) : Prop where
  /-- R27: the key table holds entries 0 to 1041, in canonical form. -/
  kt_canonical : Store.risingIn 0 Config.ktEntries s.kt = true
  /-- R29: the buffer holds words below `BC_CAP`, in canonical form. -/
  bc_canonical : Store.risingIn 0 Config.bcCap s.bc = true
  /-- R29: `0 <= BC_LEN <= BC_CAP`. -/
  bcLen_le_cap : s.bcLen.toNat ≤ Config.bcCap
  /-- `OUT` is in canonical form. -/
  out_canonical : Memory.wf s.out = true
  /-- R32, R78: every byte of `OUT` below `OUT_LEN` was written. -/
  out_written : ∀ a, a < s.outLen.toNat → (Store.lookup s.out a).isSome = true
  /-- `IMG` is in canonical form. -/
  img_canonical : s.img.wf = true
  /-- `KEY` is in canonical form. -/
  key_canonical : s.key.wf = true
  /-- R230, R236: the fault record is the mode's. -/
  fault_consistent : faultConsistent s.mode s.fault = true

/-- Before the next reset the host issues no further register access, so that the run is over (R78). -/
def hostIsDone (coming : List HostAction) : Prop :=
  ∀ a ∈ coming.takeWhile fun a => !resets a,
    (∀ width offset, a ≠ .read width offset) ∧ ∀ width offset v, a ≠ .write width offset v

/-- The host actions the spec gives a meaning, in `s` with the actions `rest` to come (R65, R72, R78, R220, U22). -/
def accepted (s : State) (rest : List HostAction) (a : HostAction) : Bool :=
  match a with
  | .read width offset => decide (width = 32) && decide (offset % 4 = 0) && (mappedReg offset).isSome
  | .write width offset _ => decide (width = 32) && decide (offset % 4 = 0) && (mappedReg offset).isSome
  | .readOut _ => true
  | .hardwareReset => true
  | .supplyImg bytes => !s.imgUsed || runEnded s.mode rest || decide (Space.ofBytes bytes = s.img)
  | .supplyKey bytes => !s.keyUsed || runEnded s.mode rest || decide (Space.ofBytes bytes = s.key)

/-- The next action resets the engine: the platform's input, or the exact RESET word (R95, R260). -/
def servesReset (s : State) : Prop :=
  ∃ rest, s.pending = .hardwareReset :: rest ∨ s.pending = .write 32 0x000 0x000000FF#32 :: rest

/-- The next action is a write to `CMD` of a word of the command `i` (R25, R93). -/
def servesCommand (i : Instr) (s : State) : Prop :=
  ∃ w rest, s.pending = .write 32 0x000 w :: rest ∧ decodeWord w = .ok i

/-- The words R94 calls illegal: no opcode of the map, or a format N opcode with a bit of 31:8 set. -/
def illegalWord (w : Word) : Prop :=
  w.toNat % 256 = 0 ∨ (0x0E ≤ w.toNat % 256 ∧ w.toNat % 256 ≤ 0xFE) ∨
    (w.toNat % 256 ≠ 0x09 ∧ w.toNat % 256 ≠ 0x0A ∧ 256 ≤ w.toNat)

/-- The rows of R42 that give a value. -/
def controlAtReset (s : State) : Prop :=
  statusWord s = 0#32 ∧ validWord s.valid = 0#32 ∧ faultWord s.fault = 0#32 ∧ s.bcLen = 0#32 ∧
    s.ckOff = 0x10#32 ∧ s.ckLen = 0x7F0#32 ∧ s.crcCalc = 0#16 ∧ s.outLen = 0#32 ∧ s.mode = .idle

/-- The row of R42 that gives none: nothing has written the data, so that every read of it is free. -/
def dataUnspecified (s : State) : Prop :=
  s.blkLo.written = false ∧ s.blkHi.written = false ∧ s.kc0.written = false ∧ s.kc1.written = false ∧
    s.kc2.written = false ∧ s.title0.written = false ∧ s.title1.written = false ∧
    s.title2.written = false ∧ s.gamecode.written = false ∧ s.bootOff.written = false ∧
    s.bootCnt.written = false ∧ s.ckEmb.written = false ∧
    (∀ i, Store.lookup s.kt i = none) ∧ ∀ k, Store.lookup s.bc k = none

/-- The number a little-endian byte sequence stands for (R12, R62). -/
def leNumber : List Byte → Nat
  | [] => 0
  | b :: rest => b.toNat + 256 * leNumber rest

/-- The `n` bytes of an input space from address `a` on: `MemRead` (R14). -/
def memRead (sp : Space) (a n : Nat) : List Byte := (List.range n).map fun j => sp.byte (a + j)

/-- A register holds the little-endian `u32` at address `a` of an input space. -/
def holdsLe32 (r : Reg 32) (sp : Space) (a : Nat) : Prop :=
  r.written = true ∧ r.value.toNat = leNumber (memRead sp a 4)

/-- Every entry of the key table is written, and the table is `T`. -/
def tableIs (s : State) (T : Table) : Prop := ∀ i, i < Config.ktEntries → Store.lookup s.kt i = some (T i)

/-- Step 2 of R153 on a pure table. -/
def foldedTable (T : Table) (kc0 kc1 : Word) : Table := fun i =>
  if i < 12 then T i ^^^ bswap32 (if i % 2 = 0 then kc0 else kc1) else T i

/-- The scratch block and the table after `n` iterations of step 3 of R153 on a pure table. -/
def refilled (T : Table) : Nat → Block × Table
  | 0 => (0#64, T)
  | n + 1 =>
    (crypt (refilled T n).2 (refilled T n).1 .enc,
      Function.update
        (Function.update (refilled T n).2 (2 * n) (hiHalf (crypt (refilled T n).2 (refilled T n).1 .enc)))
        (2 * n + 1) (loHalf (crypt (refilled T n).2 (refilled T n).1 .enc)))

/-- The keycode word of step 1 of R153 on a pure table. -/
def encryptedKeycode (T : Table) (kc : Word) : Word := loHalf (crypt T (zext64 kc) .enc)

/-- The table DERIVE makes of a pure table (R153). -/
def derivedTable (T : Table) (kc0 kc1 : Word) : Table :=
  (refilled (foldedTable T (encryptedKeycode T kc0) (encryptedKeycode T kc1)) 66).2

end Sys2Proof.Machine
end

