-- ==== Sys2Proof/Certificates/Slice0/Obligations.lean ====
section
/-! DEFINITION. The statements for the provers. -/

open Sys2Proof Sys2Proof.Machine

/-! ### Encoding -/

/-- R90, R91, R93: the decoder gives back every command that has an encoding. -/
def Obligations.DecodeOfEncodeGivesTheCommandBack : Prop :=
  ∀ i : Instr, i.WellFormed → decodeWord (encode i) = .ok i

/-- R90, R93: a legal word is the encoding of the command it decodes to, so no bit of it is dropped. -/
def Obligations.EncodeOfDecodeGivesTheWordBack : Prop :=
  ∀ (w : Word) (i : Instr), decodeWord w = .ok i → i.WellFormed ∧ encode i = w

/-- R91, R93: `w` selects a command iff `w & mask == match`, row by row of the opcode map. -/
def Obligations.DecoderFollowsTheOpcodeMap : Prop :=
  (∀ (w : Word) (p : Instr × Word),
    p ∈ [(Instr.loadkt, 0x00000001#32), (Instr.dechdr, 0x00000002#32), (Instr.enc, 0x00000003#32),
      (Instr.dec, 0x00000004#32), (Instr.mkkey, 0x00000005#32), (Instr.derive, 0x00000006#32),
      (Instr.extract, 0x00000007#32), (Instr.classify, 0x00000008#32), (Instr.ckload, 0x0000000B#32),
      (Instr.check, 0x0000000C#32), (Instr.dump, 0x0000000D#32), (Instr.reset, 0x000000FF#32)] →
    (decodeWord w = .ok p.1 ↔ w &&& 0xFFFFFFFF#32 = p.2)) ∧
  (∀ (w : Word) (idx : Nat),
    decodeWord w = .ok (.ldblk idx) ↔ w &&& 0x000000FF#32 = 0x00000009#32 ∧ idx = w.toNat / 256) ∧
  ∀ (w : Word) (idx : Nat),
    decodeWord w = .ok (.stblk idx) ↔ w &&& 0x000000FF#32 = 0x0000000A#32 ∧ idx = w.toNat / 256

/-- R94: a word is refused by the decoder exactly when it is illegal; written to `CMD` in mode `IDLE` it
raises `Precondition(1)` with its low byte, and in mode `FAULTED` it is ignored. -/
def Obligations.IllegalWordsFaultOrAreIgnored : Prop :=
  ∀ w : Word, ((∃ e, decodeWord w = .error e) ↔ illegalWord w) ∧
    (illegalWord w → ∀ (s : State) (rest : List HostAction), s.pending = .write 32 0x000 w :: rest →
      (s.mode = .idle →
        step s = .next (raise .precondition 1#8 (BitVec.ofNat 8 (w.toNat % 256)) (accept rest s))) ∧
      (s.mode = .faulted → step s = .next (accept rest s)))

/-- R95: a RESET word with a bit of 31:8 set is illegal and does not reset; the exact word resets. -/
def Obligations.OnlyTheExactResetWordResets : Prop :=
  (∀ w : Word, decodeWord w = .ok .reset ↔ w = 0x000000FF#32) ∧
  ∀ (w : Word) (s : State) (rest : List HostAction), s.pending = .write 32 0x000 w :: rest →
    w.toNat % 256 = 0xFF →
    (w = 0x000000FF#32 → step s = .next (resetEngine (accept rest s))) ∧
    (w ≠ 0x000000FF#32 → s.mode = .faulted → step s = .next (accept rest s)) ∧
    (w ≠ 0x000000FF#32 → s.mode = .idle →
      step s = .next (raise .precondition 1#8 0xFF#8 (accept rest s)))

/-- R93, R98: words written out from the encoding decode to their commands. -/
def Obligations.SampleWordsDecode : Prop :=
  decodeWord 0x00000001#32 = .ok .loadkt ∧ decodeWord 0x00000006#32 = .ok .derive ∧
    decodeWord 0x0000FF09#32 = .ok (.ldblk 255) ∧ decodeWord 0xFFFFFF0A#32 = .ok (.stblk 0xFFFFFF) ∧
    decodeWord 0x000000FF#32 = .ok .reset ∧ decodeWord 0x00000000#32 = .error (.unknownOpcode 0#8) ∧
    decodeWord 0x00000103#32 = .error (.nonzeroUpper 3#8)

/-! ### The step -/

/-- R25, R70: a legal word written to `CMD` is executed; around `exec` the step removes the host's
action, advances the draw and notes which input the run has used. -/
def Obligations.StepRunsTheDecodedCommand : Prop :=
  ∀ (s : State) (rest : List HostAction) (w : Word) (i : Instr),
    s.pending = .write 32 0x000 w :: rest → decodeWord w = .ok i →
    step s = exec i (noteInputs i (accept rest s))

/-- R90: the word of a well-formed command, placed with `withFetchWord`, is what the next step runs. -/
def Obligations.PlacedCommandIsTheNextToRun : Prop :=
  ∀ (s : State) (i : Instr), i.WellFormed →
    step (s.withFetchWord 32 (encode i).toNat) = exec i (noteInputs i (accept s.pending s))

/-- R246: without a host access nothing changes. -/
def Obligations.EngineWaitsForTheHost : Prop :=
  ∀ s : State, s.pending = [] → step s = .next s

/-- R65, R220, R273: a step answers a next state on every host action that has a meaning, and refuses
every other one. -/
def Obligations.StepAnswersExactlyTheAcceptedAccesses : Prop :=
  ∀ (s : State) (a : HostAction) (rest : List HostAction), s.pending = a :: rest →
    (accepted s rest a = true → ∃ t, step s = .next t) ∧
      (accepted s rest a = false → ∃ r, step s = .refused r)

/-- R33, R220: the offsets and widths that have no meaning. -/
def Obligations.UnmappedAccessesAreRefused : Prop :=
  ∀ (s : State) (rest : List HostAction) (width o : Nat) (v : Word),
    (width ≠ 32 ∨ o % 4 ≠ 0 ∨ (0x054 ≤ o ∧ o ≤ 0xFFF) ∨ 0x2048 ≤ o) →
    (∃ r, step { s with pending := .read width o :: rest } = .refused r) ∧
      ∃ r, step { s with pending := .write width o v :: rest } = .refused r

/-! ### Reset -/

/-- R42: the state after hardware reset. -/
def Obligations.ResetStateIsAsTheTableSays : Prop :=
  controlAtReset State.reset ∧ dataUnspecified State.reset

/-- R215: RESET gives every register its reset value in either mode, leaves the data unspecified, and
does not touch `OUT`, `IMG`, `KEY`; it is the only command accepted in mode `FAULTED`. -/
def Obligations.ResetCommandResetsInEitherMode : Prop :=
  decodeWord 0x000000FF#32 = .ok .reset ∧
  (∀ s : State, ∃ t, exec .reset s = .next t ∧ controlAtReset t ∧ dataUnspecified t ∧
    t.out = s.out ∧ t.img = s.img ∧ t.key = s.key ∧ t.pending = s.pending ∧ t.draws = s.draws) ∧
  ∀ (i : Instr) (s : State), s.mode = .faulted → i ≠ .reset → exec i s = .next s

/-- R260: the hardware reset input and the RESET command have the same effect. -/
def Obligations.HardwareResetEqualsResetCommand : Prop :=
  ∀ (s : State) (rest : List HostAction), s.pending = .hardwareReset :: rest →
    ∃ t, step s = .next t ∧ exec .reset (accept rest s) = .next t ∧ controlAtReset t ∧
      dataUnspecified t ∧ t.out = s.out

/-! ### The commands in mode IDLE: when each has its effect, what it leaves, when it faults -/

/-- R110, R111: LOADKT. -/
def Obligations.LoadktLoadsTheWholeBlob : Prop :=
  decodeWord 0x00000001#32 = .ok .loadkt ∧ ∀ s : State, s.mode = .idle →
    (4168 ≤ s.key.len → ∃ t, exec .loadkt s = .next t ∧
      (∀ i, i < 1042 → ∃ v, Store.lookup t.kt i = some v ∧ v.toNat = leNumber (memRead s.key (4 * i) 4)) ∧
      (∀ i, 1042 ≤ i → Store.lookup t.kt i = Store.lookup s.kt i) ∧
      t = { s with kt := t.kt, valid := { s.valid with kt := true } }) ∧
    (s.key.len < 4168 → exec .loadkt s = .next (raise .truncatedInput 1#8 0x01#8 s))

/-- R120, R122: DECHDR, over the layout parameters. -/
def Obligations.DechdrDecodesTheFourFields : Prop :=
  decodeWord 0x00000002#32 = .ok .dechdr ∧ ∀ s : State, s.mode = .idle →
    (Config.layout.hdrSize ≤ s.img.len → ∃ t, exec .dechdr s = .next t ∧
      holdsLe32 t.title0 s.img Config.layout.offTitle ∧
      holdsLe32 t.title1 s.img (Config.layout.offTitle + 4) ∧
      holdsLe32 t.title2 s.img (Config.layout.offTitle + 8) ∧
      holdsLe32 t.gamecode s.img Config.layout.offGamecode ∧
      holdsLe32 t.bootOff s.img Config.layout.offBootOff ∧
      holdsLe32 t.bootCnt s.img Config.layout.offBootCnt ∧
      t = { s with
        title0 := t.title0, title1 := t.title1, title2 := t.title2, gamecode := t.gamecode,
        bootOff := t.bootOff, bootCnt := t.bootCnt, valid := { s.valid with hdr := true } }) ∧
    (s.img.len < Config.layout.hdrSize → exec .dechdr s = .next (raise .truncatedInput 2#8 0x02#8 s))

/-- R133: ENC. Over a key table that is wholly written the result is `Crypt(KT, BLK, enc)`; entries that
nothing has written read as free values (R41). -/
def Obligations.EncEncryptsTheBlockRegister : Prop :=
  decodeWord 0x00000003#32 = .ok .enc ∧ ∀ s : State, s.mode = .idle →
    (s.valid.kt = true → s.valid.blk = true → ∃ t, exec .enc s = .next t ∧
      getBlk t = cryptReads (fun r => ktView s.kt s.draws r) (getBlk s) .enc ∧
      (∀ T, tableIs s T → getBlk t = crypt T (getBlk s) .enc) ∧
      t.blkLo.written = true ∧ t.blkHi.written = true ∧
      t = { s with blkLo := t.blkLo, blkHi := t.blkHi }) ∧
    ((s.valid.kt && s.valid.blk) = false → exec .enc s = .next (raise .precondition 2#8 0x03#8 s))

/-- R134: DEC. -/
def Obligations.DecDecryptsTheBlockRegister : Prop :=
  decodeWord 0x00000004#32 = .ok .dec ∧ ∀ s : State, s.mode = .idle →
    (s.valid.kt = true → s.valid.blk = true → ∃ t, exec .dec s = .next t ∧
      getBlk t = cryptReads (fun r => ktView s.kt s.draws r) (getBlk s) .dec ∧
      (∀ T, tableIs s T → getBlk t = crypt T (getBlk s) .dec) ∧
      t.blkLo.written = true ∧ t.blkHi.written = true ∧
      t = { s with blkLo := t.blkLo, blkHi := t.blkHi }) ∧
    ((s.valid.kt && s.valid.blk) = false → exec .dec s = .next (raise .precondition 2#8 0x04#8 s))

/-- R150: MKKEY. -/
def Obligations.MkkeyFormsTheKeycode : Prop :=
  decodeWord 0x00000005#32 = .ok .mkkey ∧ ∀ s : State, s.mode = .idle →
    (s.valid.hdr = true → ∃ t, exec .mkkey s = .next t ∧
      t.kc0 = Reg.holds (getGamecode s) ∧
      t.kc1.written = true ∧ t.kc1.value.toNat = (getGamecode s).toNat / 2 ∧
      t.kc2.written = true ∧ t.kc2.value.toNat = 2 * (getGamecode s).toNat % 2 ^ 32 ∧
      t = { s with kc0 := t.kc0, kc1 := t.kc1, kc2 := t.kc2, valid := { s.valid with kc := true } }) ∧
    (s.valid.hdr = false → exec .mkkey s = .next (raise .precondition 2#8 0x05#8 s))

/-- R153: DERIVE. Over a key table that is wholly written the entries and the keycode words are those of
the three steps on a pure table; entries that nothing has written read as free values (R41). -/
def Obligations.DeriveFollowsTheThreeSteps : Prop :=
  decodeWord 0x00000006#32 = .ok .derive ∧ ∀ s : State, s.mode = .idle →
    (s.valid.kt = true → s.valid.kc = true → ∃ t, exec .derive s = .next t ∧
      t.kc0.written = true ∧ t.kc1.written = true ∧
      (∀ i, i < 132 → (Store.lookup t.kt i).isSome = true) ∧
      (∀ i, 132 ≤ i → Store.lookup t.kt i = Store.lookup s.kt i) ∧
      (∀ T, tableIs s T →
        t.kc0.value = encryptedKeycode T (getKc0 s) ∧ t.kc1.value = encryptedKeycode T (getKc1 s) ∧
        tableIs t (derivedTable T (getKc0 s) (getKc1 s))) ∧
      t = { s with kc0 := t.kc0, kc1 := t.kc1, kt := t.kt }) ∧
    ((s.valid.kt && s.valid.kc) = false → exec .derive s = .next (raise .precondition 2#8 0x06#8 s))

/-- R172: EXTRACT, with its faults in the order of R242. That the tests, the transfer and `BC_LEN` see one
value of a header field that nothing has written is the model's choice: log entry 14. -/
def Obligations.ExtractReadsAndClassifiesTheBootCode : Prop :=
  decodeWord 0x00000007#32 = .ok .extract ∧ ∀ s : State, s.mode = .idle →
    (s.valid.hdr = true → getBootOff s = 0x4000#32 → 1 ≤ (getBootCnt s).toNat →
      (getBootCnt s).toNat ≤ Config.bcCap → 0x4000 + 8 * (getBootCnt s).toNat ≤ s.img.len →
      ∃ t, exec .extract s = .next t ∧
        (∀ k, k < (getBootCnt s).toNat → ∃ v, Store.lookup t.bc k = some v ∧
          v.toNat = leNumber (memRead s.img (0x4000 + 8 * k) 8)) ∧
        (∀ k, (getBootCnt s).toNat ≤ k → Store.lookup t.bc k = Store.lookup s.bc k) ∧
        t.secureEncrypted = decide (leNumber (memRead s.img 0x4000 8) ≠ 0xE7FFDEFFE7FFDEFF) ∧
        t = { s with
          bc := t.bc, bcLen := getBootCnt s, securePresent := true, secureEncrypted := t.secureEncrypted,
          valid := { s.valid with bc := true, cls := true } }) ∧
    (s.valid.hdr = false → exec .extract s = .next (raise .precondition 2#8 0x07#8 s)) ∧
    (s.valid.hdr = true → getBootOff s ≠ 0x4000#32 →
      exec .extract s = .next (raise .unsupportedLayout 1#8 0x07#8 s)) ∧
    (s.valid.hdr = true → getBootOff s = 0x4000#32 → getBootCnt s = 0#32 →
      exec .extract s = .next (raise .precondition 6#8 0x07#8 s)) ∧
    (s.valid.hdr = true → getBootOff s = 0x4000#32 → Config.bcCap < (getBootCnt s).toNat →
      exec .extract s = .next (raise .precondition 5#8 0x07#8 s)) ∧
    (s.valid.hdr = true → getBootOff s = 0x4000#32 → 1 ≤ (getBootCnt s).toNat →
      (getBootCnt s).toNat ≤ Config.bcCap → s.img.len < 0x4000 + 8 * (getBootCnt s).toNat →
      exec .extract s = .next (raise .truncatedInput 3#8 0x07#8 s))

/-- R174, R175: CLASSIFY. -/
def Obligations.ClassifyRecomputesTheTwoFlags : Prop :=
  decodeWord 0x00000008#32 = .ok .classify ∧ ∀ s : State, s.mode = .idle →
    (s.valid.hdr = true → s.valid.bc = true → 1 ≤ s.bcLen.toNat → ∃ t, exec .classify s = .next t ∧
      (t.securePresent = true ↔ 0x4000 ≤ (getBootOff s).toNat ∧ (getBootOff s).toNat < 0x8000) ∧
      (t.secureEncrypted = true ↔ getBc s 0 ≠ 0xE7FFDEFFE7FFDEFF#64) ∧
      t = { s with
        securePresent := t.securePresent, secureEncrypted := t.secureEncrypted,
        valid := { s.valid with cls := true } }) ∧
    ((s.valid.hdr && s.valid.bc) = false → exec .classify s = .next (raise .precondition 2#8 0x08#8 s)) ∧
    (s.valid.hdr = true → s.valid.bc = true → s.bcLen = 0#32 →
      exec .classify s = .next (raise .precondition 6#8 0x08#8 s))

/-- R176: LDBLK. -/
def Obligations.LdblkCopiesTheWordIntoTheBlock : Prop :=
  (∀ idx, idx < 2 ^ 24 → decodeWord (BitVec.ofNat 32 (idx * 256 + 0x09)) = .ok (.ldblk idx)) ∧
  ∀ (s : State) (idx : Nat), s.mode = .idle →
    (s.valid.bc = true → idx < s.bcLen.toNat → ∃ t, exec (.ldblk idx) s = .next t ∧
      getBlk t = getBc s idx ∧ t.blkLo.written = true ∧ t.blkHi.written = true ∧
      t = { s with blkLo := t.blkLo, blkHi := t.blkHi, valid := { s.valid with blk := true } }) ∧
    (s.valid.bc = false → exec (.ldblk idx) s = .next (raise .precondition 2#8 0x09#8 s)) ∧
    (s.valid.bc = true → s.bcLen.toNat ≤ idx →
      exec (.ldblk idx) s = .next (raise .precondition 4#8 0x09#8 s))

/-- R177: STBLK. -/
def Obligations.StblkCopiesTheBlockIntoTheWord : Prop :=
  (∀ idx, idx < 2 ^ 24 → decodeWord (BitVec.ofNat 32 (idx * 256 + 0x0A)) = .ok (.stblk idx)) ∧
  ∀ (s : State) (idx : Nat), s.mode = .idle →
    (s.valid.bc = true → s.valid.blk = true → idx < s.bcLen.toNat → ∃ t, exec (.stblk idx) s = .next t ∧
      Store.lookup t.bc idx = some (getBlk s) ∧
      (∀ k, k ≠ idx → Store.lookup t.bc k = Store.lookup s.bc k) ∧ t = { s with bc := t.bc }) ∧
    ((s.valid.bc && s.valid.blk) = false →
      exec (.stblk idx) s = .next (raise .precondition 2#8 0x0A#8 s)) ∧
    (s.valid.bc = true → s.valid.blk = true → s.bcLen.toNat ≤ idx →
      exec (.stblk idx) s = .next (raise .precondition 4#8 0x0A#8 s))

/-- R171, R178: DUMP. -/
def Obligations.DumpWritesEveryByteOfTheBootCode : Prop :=
  decodeWord 0x0000000D#32 = .ok .dump ∧ ∀ s : State, s.mode = .idle →
    (s.valid.bc = true → ∃ t, exec .dump s = .next t ∧
      (∀ a, a < 8 * s.bcLen.toNat → ∃ v, Store.lookup t.out a = some v ∧
        v.toNat = (getBc s (a / 8)).toNat / 2 ^ (8 * (a % 8)) % 256) ∧
      (∀ a, 8 * s.bcLen.toNat ≤ a → Store.lookup t.out a = Store.lookup s.out a) ∧
      t.outLen.toNat = 8 * s.bcLen.toNat % 2 ^ 32 ∧ t = { s with out := t.out, outLen := t.outLen }) ∧
    (s.valid.bc = false → exec .dump s = .next (raise .precondition 2#8 0x0D#8 s))

/-- R200: CKLOAD; the embedded checksum is `BC[1][63:48]`. -/
def Obligations.CkloadLoadsTheOperands : Prop :=
  decodeWord 0x0000000B#32 = .ok .ckload ∧ ∀ s : State, s.mode = .idle →
    (s.valid.bc = true → 2 ≤ s.bcLen.toNat → ∃ t, exec .ckload s = .next t ∧
      t.ckEmb.written = true ∧ t.ckEmb.value.toNat = (getBc s 1).toNat / 2 ^ 48 ∧
      t = { s with
        ckEmb := t.ckEmb, ckOff := 16#32, ckLen := 0x7F0#32, valid := { s.valid with ckin := true } }) ∧
    (s.valid.bc = false → exec .ckload s = .next (raise .precondition 2#8 0x0B#8 s)) ∧
    (s.valid.bc = true → s.bcLen.toNat < 2 → exec .ckload s = .next (raise .precondition 4#8 0x0B#8 s))

/-- R202: CHECK, over the parameter `CRC16`. That the bytes of a boot-code word that nothing has written come
from one free word is the model's choice: log entry 14. -/
def Obligations.CheckComparesTheChecksum : Prop :=
  decodeWord 0x0000000C#32 = .ok .check ∧ ∀ s : State, s.mode = .idle →
    (s.valid.bc = true → s.valid.ckin = true → s.ckLen = 0x7F0#32 →
      s.ckOff.toNat + 0x7F0 ≤ 8 * s.bcLen.toNat → ∃ t, exec .check s = .next t ∧
        (∃ slice : List Byte, slice.length = 2032 ∧
          (∀ j, j < 2032 → ∃ v, slice[j]? = some v ∧
            v.toNat = (getBc s ((s.ckOff.toNat + j) / 8)).toNat / 2 ^ (8 * ((s.ckOff.toNat + j) % 8)) % 256) ∧
          t.crcCalc = Config.crc16 slice) ∧
        (t.crcMatch = true ↔ t.crcCalc = getCkEmb s) ∧
        t = { s with
          crcCalc := t.crcCalc, crcMatch := t.crcMatch, valid := { s.valid with ckres := true } }) ∧
    ((s.valid.bc && s.valid.ckin) = false → exec .check s = .next (raise .precondition 2#8 0x0C#8 s)) ∧
    (s.valid.bc = true → s.valid.ckin = true → s.ckLen ≠ 0x7F0#32 →
      exec .check s = .next (raise .precondition 3#8 0x0C#8 s)) ∧
    (s.valid.bc = true → s.valid.ckin = true → s.ckLen = 0x7F0#32 →
      8 * s.bcLen.toNat < s.ckOff.toNat + 0x7F0 → exec .check s = .next (raise .precondition 4#8 0x0C#8 s))

/-! ### The cipher -/

/-- R131: the round function, computed on natural numbers and narrowed at the end. -/
def Obligations.RoundFunctionIsTheFormula : Prop :=
  ∀ (T : Table) (z : Word),
    (roundF T z).toNat =
      ((((T (18 + z.toNat / 2 ^ 24)).toNat + (T (274 + z.toNat / 2 ^ 16 % 256)).toNat) % 2 ^ 32 ^^^
          (T (530 + z.toNat / 2 ^ 8 % 256)).toNat) +
        (T (786 + z.toNat % 256)).toNat) % 2 ^ 32

/-- R132: the block function, as the sequences of the values that `x` and `y` take before round 0, 1, ...,
and after round 15: round `r` uses subkey `r` to encrypt and `17 - r` to decrypt. -/
def Obligations.CryptFollowsTheSixteenRounds : Prop :=
  ∀ (T : Table) (b : Block) (x y : Nat → Word) (key : Nat → Nat),
    (x 0).toNat = b.toNat % 2 ^ 32 → (y 0).toNat = b.toNat / 2 ^ 32 →
    (∀ r, r < 16 →
      x (r + 1) = y r ^^^ roundF T (T (key r) ^^^ x r) ∧ y (r + 1) = T (key r) ^^^ x r) →
    ((∀ r, r < 16 → key r = r) →
      (crypt T b .enc).toNat = (x 16 ^^^ T 17).toNat * 2 ^ 32 + (y 16 ^^^ T 16).toNat) ∧
    ((∀ r, r < 16 → key r = 17 - r) →
      (crypt T b .dec).toNat = (x 16 ^^^ T 0).toNat * 2 ^ 32 + (y 16 ^^^ T 1).toNat)

/-- R136: the two directions are inverse when `T[16] = T[17]` and `T[0] = T[1]`, and not in general: the
spec's counterexample. -/
def Obligations.RoundTripHoldsForEqualFinalWordsAndFailsInGeneral : Prop :=
  (∀ (T : Table) (b : Block), T 16 = T 17 → T 0 = T 1 →
    crypt T (crypt T b .enc) .dec = b ∧ crypt T (crypt T b .dec) .enc = b) ∧
  crypt (fun i => BitVec.ofNat 32 (0x9E3779B9 * (i + 1))) 0x0123456789ABCDEF#64 .enc =
    0x348A7509236B9388#64 ∧
  crypt (fun i => BitVec.ofNat 32 (0x9E3779B9 * (i + 1))) 0x348A7509236B9388#64 .dec =
    0x23C0CBF1A5049B81#64

/-- R137 (b): for a fixed table and direction the block function is a bijection. -/
def Obligations.CryptIsABijection : Prop :=
  ∀ (T : Table) (dir : Dir), Function.Bijective fun b => crypt T b dir

/-- R137 (c): the block function reads no entry beyond the table. -/
def Obligations.CryptReadsOnlyTheTable : Prop :=
  ∀ (T U : Table) (b : Block) (dir : Dir), (∀ i, i < 1042 → T i = U i) → crypt T b dir = crypt U b dir

/-- R137 (d): `T[16]`, `T[17]` enter an encryption, and `T[0]`, `T[1]` a decryption, in the finalisation
alone: changing them changes the result by their difference. -/
def Obligations.FinalWordsEnterOnlyTheFinalisation : Prop :=
  (∀ (T U : Table) (b : Block), (∀ i, i ≠ 16 → i ≠ 17 → T i = U i) →
    crypt T b .enc ^^^ crypt U b .enc = (T 17 ^^^ U 17) ++ (T 16 ^^^ U 16)) ∧
  ∀ (T U : Table) (b : Block), (∀ i, i ≠ 0 → i ≠ 1 → T i = U i) →
    crypt T b .dec ^^^ crypt U b .dec = (T 0 ^^^ U 0) ++ (T 1 ^^^ U 1)

/-- R133 (b), R134 (b): over an all-zero table each direction swaps the halves. -/
def Obligations.ZeroTableSwapsTheHalves : Prop :=
  ∀ (h l : Word) (dir : Dir), crypt (fun _ => 0#32) (h ++ l) dir = l ++ h

/-- R154 (b), (c): `KC[2]` has no influence on DERIVE and is left alone by it. -/
def Obligations.DeriveIgnoresKeycodeWordTwo : Prop :=
  ∀ (s t : State) (r : Reg 32), exec .derive s = .next t →
    t.kc2 = s.kc2 ∧ exec .derive { s with kc2 := r } = .next { t with kc2 := r }

/-! ### The boot code as a whole -/

/-- R178: a DUMP directly after EXTRACT reproduces the image's region byte for byte. -/
def Obligations.DumpAfterExtractReproducesTheImage : Prop :=
  ∀ s t : State, s.mode = .idle → exec .extract s = .next t → t.mode = .idle →
    ∃ u, exec .dump t = .next u ∧ u.outLen.toNat = 8 * t.bcLen.toNat ∧
      ∀ a, a < 8 * t.bcLen.toNat → Store.lookup u.out a = some (s.img.byte (0x4000 + a))

/-- R202 (d): a transform of word 0 leaves the checked slice, and so the result of CHECK over it, alone. -/
def Obligations.StoringWordZeroKeepsTheCheckedSlice : Prop :=
  ∀ s t : State, 8 ≤ s.ckOff.toNat → exec (.stblk 0) s = .next t → sliceChecksum t = sliceChecksum s

/-- R29: no command but EXTRACT and RESET touches a buffer word at or beyond `BC_LEN`, and no command's
effect depends on one. -/
def Obligations.BufferBeyondItsLengthIsNotUsed : Prop :=
  ∀ (i : Instr) (s t : State) (m : Store 64), exec i s = .next t →
    (∀ k, k < s.bcLen.toNat → Store.lookup m k = Store.lookup s.bc k) →
    (∃ u, exec i { s with bc := m } = .next u ∧ { u with bc := t.bc } = t ∧
      ∀ k, k < t.bcLen.toNat → Store.lookup u.bc k = Store.lookup t.bc k) ∧
    (i ≠ .reset → ∀ k, s.bcLen.toNat ≤ k → t.bcLen.toNat ≤ k →
      Store.lookup t.bc k = Store.lookup s.bc k)

/-! ### Rules over all commands -/

/-- R273: every command terminates: `exec` answers a next state for every command in every state. -/
def Obligations.EveryCommandAnswersANextState : Prop :=
  ∀ (i : Instr) (s : State), ∃ t, exec i s = .next t

/-- R236: fault entry. The record's number, the mode, and nothing else; and a step that enters mode
`FAULTED` records bits 7:0 of the word that was written to `CMD`. The fields of the host's side of the
bus are the model's: log entries 1, 3, 8. -/
def Obligations.FaultEntryWritesTheRecord : Prop :=
  (∀ (info op : Byte) (s : State),
    (faultWord (raise .truncatedInput info op s).fault).toNat = 65536 * op.toNat + 256 * info.toNat + 1 ∧
    (faultWord (raise .unsupportedLayout info op s).fault).toNat =
      65536 * op.toNat + 256 * info.toNat + 2 ∧
    (faultWord (raise .precondition info op s).fault).toNat = 65536 * op.toNat + 256 * info.toNat + 3 ∧
    ∀ k, raise k info op s = { s with fault := (raise k info op s).fault, mode := .faulted }) ∧
  ∀ (s t : State) (rest : List HostAction) (w : Word), s.mode = .idle →
    s.pending = .write 32 0x000 w :: rest → step s = .next t → t.mode = .faulted →
    t.fault.op.toNat = w.toNat % 256 ∧
    ∃ k info, t = raise k info t.fault.op
      { s with pending := rest, draws := s.draws + 1, imgUsed := t.imgUsed, keyUsed := t.keyUsed }

/-- R236, R237: a command that faults leaves the state before it plus the fault record, which names the
command. -/
def Obligations.FaultLeavesOnlyTheRecord : Prop :=
  ∀ (i : Instr) (s t : State), s.mode = .idle → exec i s = .next t → t.mode = .faulted →
    t.fault.op = i.opcode ∧ t.fault.code ≠ 0#2 ∧ t = { s with fault := t.fault, mode := .faulted }

/-- R38: in mode `FAULTED` every command except RESET is ignored. -/
def Obligations.FaultedModeIgnoresEveryOtherCommand : Prop :=
  ∀ (i : Instr) (s : State), s.mode = .faulted → i ≠ .reset → exec i s = .next s

/-- R38, R219, R238: in mode `FAULTED` the hardware input and a write of the exact RESET word to `CMD`
reset; every other step leaves every register, table entry, buffer word, flag, valid bit, the record,
the mode and `OUT` as they are. -/
def Obligations.OnlyResetLeavesTheFaultedMode : Prop :=
  ∀ s t : State, s.mode = .faulted → step s = .next t →
    (∀ rest, s.pending = .hardwareReset :: rest ∨ s.pending = .write 32 0x000 0x000000FF#32 :: rest →
      t = resetEngine (accept rest s)) ∧
    ((∀ rest, s.pending ≠ .hardwareReset :: rest ∧ s.pending ≠ .write 32 0x000 0x000000FF#32 :: rest) →
      t = { s with
        img := t.img, key := t.key, pending := t.pending, readData := t.readData, draws := t.draws })

/-- R38, R234: only a word written to `CMD` can enter mode `FAULTED`. -/
def Obligations.OnlyACommandWordEntersTheFaultedMode : Prop :=
  ∀ s t : State, s.mode = .idle → step s = .next t → t.mode = .faulted →
    ∃ w rest, s.pending = .write 32 0x000 w :: rest

/-- R26: the secure-area flags are written by EXTRACT and CLASSIFY alone, `CRC_MATCH` by CHECK alone, but
for reset. -/
def Obligations.FlagsHaveTheirWriters : Prop :=
  ∀ (i : Instr) (s t : State), exec i s = .next t → i ≠ .reset →
    (i ≠ .extract → i ≠ .classify →
      t.securePresent = s.securePresent ∧ t.secureEncrypted = s.secureEncrypted) ∧
    (i ≠ .check → t.crcMatch = s.crcMatch)

/-- R26, R97: no command reads a flag: other flags in the state give the same effect but for the flags. -/
def Obligations.NoCommandReadsAFlag : Prop :=
  ∀ (i : Instr) (s t : State) (p e m : Bool), exec i s = .next t →
    ∃ u, exec i { s with securePresent := p, secureEncrypted := e, crcMatch := m } = .next u ∧
      { u with
        securePresent := t.securePresent, secureEncrypted := t.secureEncrypted, crcMatch := t.crcMatch } = t

/-- R22, R23, R27, R29 to R32: which commands write which register, RESET apart. -/
def Obligations.RegistersHaveTheirWriters : Prop :=
  ∀ (i : Instr) (s t : State), exec i s = .next t → i ≠ .reset →
    (i ≠ .enc → i ≠ .dec → (∀ k, i ≠ .ldblk k) → t.blkLo = s.blkLo ∧ t.blkHi = s.blkHi) ∧
    (i ≠ .mkkey → i ≠ .derive → t.kc0 = s.kc0 ∧ t.kc1 = s.kc1) ∧ (i ≠ .mkkey → t.kc2 = s.kc2) ∧
    (i ≠ .loadkt → i ≠ .derive → t.kt = s.kt) ∧
    (i ≠ .extract → (∀ k, i ≠ .stblk k) → t.bc = s.bc) ∧ (i ≠ .extract → t.bcLen = s.bcLen) ∧
    (i ≠ .dechdr → t.title0 = s.title0 ∧ t.title1 = s.title1 ∧ t.title2 = s.title2 ∧
      t.gamecode = s.gamecode ∧ t.bootOff = s.bootOff ∧ t.bootCnt = s.bootCnt) ∧
    (i ≠ .ckload → t.ckEmb = s.ckEmb ∧ t.ckOff = s.ckOff ∧ t.ckLen = s.ckLen) ∧
    (i ≠ .check → t.crcCalc = s.crcCalc) ∧ (i ≠ .dump → t.outLen = s.outLen ∧ t.out = s.out)

/-- R35: no command clears a valid bit except RESET, which clears all of them. -/
def Obligations.OnlyResetClearsAValidBit : Prop :=
  ∀ (i : Instr) (s t : State), exec i s = .next t →
    (i = .reset → validWord t.valid = 0#32) ∧
    (i ≠ .reset → validWord t.valid &&& validWord s.valid = validWord s.valid)

/-- R21, R60, R72, R77: no command writes an input space, and an input that a command of the run has used
stays as it is until the run has ended (R78): the engine is in mode `FAULTED`, or the host issues no further
register access before the reset, and then nothing of the engine changes up to that reset. LOADKT in mode
`IDLE` uses `KEY`, DECHDR and EXTRACT use `IMG`, nothing else does, and a reset begins a new run. The marks
on used inputs and the reading of R78 are the model's: log entry 8. -/
def Obligations.InputsAreConstantForARun : Prop :=
  (∀ (i : Instr) (s t : State), exec i s = .next t → t.img = s.img ∧ t.key = s.key) ∧
  ∀ s t : State, step s = .next t →
    (s.imgUsed = true → t.img ≠ s.img → s.mode = .faulted ∨ hostIsDone t.pending) ∧
    (s.keyUsed = true → t.key ≠ s.key → s.mode = .faulted ∨ hostIsDone t.pending) ∧
    (hostIsDone s.pending → ¬servesReset s → hostIsDone t.pending ∧
      t = { s with
        img := t.img, key := t.key, pending := t.pending, readData := t.readData, draws := t.draws }) ∧
    (s.mode = .idle → servesCommand .loadkt s → t.keyUsed = true) ∧
    (s.mode = .idle → servesCommand .dechdr s ∨ servesCommand .extract s → t.imgUsed = true) ∧
    (¬servesReset s →
      (s.imgUsed = true → t.imgUsed = true) ∧ (s.keyUsed = true → t.keyUsed = true)) ∧
    (servesReset s → t.imgUsed = false ∧ t.keyUsed = false) ∧
    (t.imgUsed = true →
      s.imgUsed = true ∨ (s.mode = .idle ∧ (servesCommand .dechdr s ∨ servesCommand .extract s))) ∧
    (t.keyUsed = true → s.keyUsed = true ∨ (s.mode = .idle ∧ servesCommand .loadkt s))

/-- R204: the checksum validator and the cipher do not interact. -/
def Obligations.ChecksumAndCipherDoNotInteract : Prop :=
  (∀ (i : Instr) (s t : State) (m : Store 32) (a b c lo hi : Reg 32), i = .ckload ∨ i = .check →
    exec i s = .next t →
    exec i { s with kt := m, kc0 := a, kc1 := b, kc2 := c, blkLo := lo, blkHi := hi } =
      .next { t with kt := m, kc0 := a, kc1 := b, kc2 := c, blkLo := lo, blkHi := hi }) ∧
  ∀ (i : Instr) (s t : State) (emb : Reg 16) (o l : Word) (x : Half) (b : Bool),
    i = .enc ∨ i = .dec ∨ i = .derive ∨ i = .mkkey ∨ i = .loadkt → exec i s = .next t →
    exec i { s with ckEmb := emb, ckOff := o, ckLen := l, crcCalc := x, crcMatch := b } =
      .next { t with ckEmb := emb, ckOff := o, ckLen := l, crcCalc := x, crcMatch := b }

/-! ### The host's register accesses -/

/-- R34, R35, R36: the fields of `STATUS`, `VALID` and `FAULT`; reserved bits read 0. -/
def Obligations.StatusValidAndFaultFields : Prop :=
  ∀ s : State,
    (statusWord s).toNat =
      (if s.mode = .faulted then 1 else 0) + 2 * s.securePresent.toNat + 4 * s.secureEncrypted.toNat +
        8 * s.crcMatch.toNat ∧
    (validWord s.valid).toNat =
      s.valid.kt.toNat + 2 * s.valid.hdr.toNat + 4 * s.valid.kc.toNat + 8 * s.valid.bc.toNat +
        16 * s.valid.blk.toNat + 32 * s.valid.cls.toNat + 64 * s.valid.ckin.toNat +
        128 * s.valid.ckres.toNat ∧
    (faultWord s.fault).toNat = s.fault.code.toNat + 256 * s.fault.info.toNat + 65536 * s.fault.op.toNat

/-- R217: what a 32-bit read of each mapped register returns, in both modes; nothing else changes but the
host's side of the bus. -/
def Obligations.HostReadsReturnTheRegisters : Prop :=
  ∀ (s u : State) (rest : List HostAction), u = { s with pending := rest, draws := s.draws + 1 } →
    ∀ rd : Nat → Result, (∀ o, rd o = step { s with pending := .read 32 o :: rest }) →
    rd 0x000 = .next { u with readData := 0#32 } ∧ rd 0x004 = .next { u with readData := statusWord s } ∧
    rd 0x008 = .next { u with readData := validWord s.valid } ∧
    rd 0x00C = .next { u with readData := faultWord s.fault } ∧
    rd 0x010 = .next { u with readData := getBlkLo u } ∧ rd 0x014 = .next { u with readData := getBlkHi u } ∧
    rd 0x018 = .next { u with readData := getKc0 u } ∧ rd 0x01C = .next { u with readData := getKc1 u } ∧
    rd 0x020 = .next { u with readData := getKc2 u } ∧
    rd 0x024 = .next { u with readData := getGamecode u } ∧
    rd 0x028 = .next { u with readData := getBootOff u } ∧
    rd 0x02C = .next { u with readData := getBootCnt u } ∧
    rd 0x030 = .next { u with readData := getTitle0 u } ∧ rd 0x034 = .next { u with readData := getTitle1 u } ∧
    rd 0x038 = .next { u with readData := getTitle2 u } ∧ rd 0x03C = .next { u with readData := s.bcLen } ∧
    rd 0x040 = .next { u with readData := (getCkEmb u).setWidth 32 } ∧
    rd 0x044 = .next { u with readData := s.ckOff } ∧ rd 0x048 = .next { u with readData := s.ckLen } ∧
    rd 0x04C = .next { u with readData := s.crcCalc.setWidth 32 } ∧
    rd 0x050 = .next { u with readData := s.outLen } ∧
    ∀ i, i < 1042 → rd (0x1000 + 4 * i) = .next { u with readData := getKt u i }

/-- R41: a register, a table entry or a buffer word that nothing has written reads as the free value of
its access and cell; one that holds a value reads as that value; and two reads of an unwritten register
have a draw of their own each. The numbering of the draws is the model's: log entry 1. -/
def Obligations.UnwrittenReadsDrawAfresh : Prop :=
  (∀ s : State,
    (s.blkLo.written = false → getBlkLo s = (Config.anyValue s.draws 0 .blkLo).setWidth 32) ∧
    (s.blkHi.written = false → getBlkHi s = (Config.anyValue s.draws 0 .blkHi).setWidth 32) ∧
    (s.kc0.written = false → getKc0 s = (Config.anyValue s.draws 0 (.kc 0)).setWidth 32) ∧
    (s.kc1.written = false → getKc1 s = (Config.anyValue s.draws 0 (.kc 1)).setWidth 32) ∧
    (s.kc2.written = false → getKc2 s = (Config.anyValue s.draws 0 (.kc 2)).setWidth 32) ∧
    (s.title0.written = false → getTitle0 s = (Config.anyValue s.draws 0 (.title 0)).setWidth 32) ∧
    (s.title1.written = false → getTitle1 s = (Config.anyValue s.draws 0 (.title 1)).setWidth 32) ∧
    (s.title2.written = false → getTitle2 s = (Config.anyValue s.draws 0 (.title 2)).setWidth 32) ∧
    (s.gamecode.written = false → getGamecode s = (Config.anyValue s.draws 0 .gamecode).setWidth 32) ∧
    (s.bootOff.written = false → getBootOff s = (Config.anyValue s.draws 0 .bootOff).setWidth 32) ∧
    (s.bootCnt.written = false → getBootCnt s = (Config.anyValue s.draws 0 .bootCnt).setWidth 32) ∧
    (s.ckEmb.written = false → getCkEmb s = (Config.anyValue s.draws 0 .ckEmb).setWidth 16) ∧
    (∀ i, Store.lookup s.kt i = none → getKt s i = (Config.anyValue s.draws 0 (.kt i)).setWidth 32) ∧
    (∀ k, Store.lookup s.bc k = none → getBc s k = Config.anyValue s.draws 0 (.bc k)) ∧
    (s.blkLo.written = true → getBlkLo s = s.blkLo.value)) ∧
  ∀ (s : State) (rest : List HostAction), s.blkLo.written = false →
    s.pending = .read 32 0x010 :: .read 32 0x010 :: rest →
    ∃ t u, step s = .next t ∧ step t = .next u ∧
      t.readData = (Config.anyValue (s.draws + 1) 0 .blkLo).setWidth 32 ∧
      u.readData = (Config.anyValue (s.draws + 2) 0 .blkLo).setWidth 32

/-- R218: what a 32-bit write to each mapped register does in mode `IDLE`. -/
def Obligations.HostWritesReachTheirCell : Prop :=
  ∀ (s u : State) (rest : List HostAction) (v : Word), s.mode = .idle →
    u = { s with pending := rest, draws := s.draws + 1 } →
    ∀ wr : Nat → Result, (∀ o, wr o = step { s with pending := .write 32 o v :: rest }) →
    wr 0x000 = runCommand v u ∧
    wr 0x004 = .next u ∧ wr 0x00C = .next u ∧ wr 0x04C = .next u ∧ wr 0x050 = .next u ∧
    wr 0x008 = .next { u with valid := {
      kt := v.getLsbD 0, hdr := v.getLsbD 1, kc := v.getLsbD 2, bc := v.getLsbD 3, blk := v.getLsbD 4,
      cls := s.valid.cls, ckin := v.getLsbD 6, ckres := s.valid.ckres } } ∧
    wr 0x010 = .next { u with blkLo := Reg.holds v } ∧ wr 0x014 = .next { u with blkHi := Reg.holds v } ∧
    wr 0x018 = .next { u with kc0 := Reg.holds v } ∧ wr 0x01C = .next { u with kc1 := Reg.holds v } ∧
    wr 0x020 = .next { u with kc2 := Reg.holds v } ∧ wr 0x024 = .next { u with gamecode := Reg.holds v } ∧
    wr 0x028 = .next { u with bootOff := Reg.holds v } ∧ wr 0x02C = .next { u with bootCnt := Reg.holds v } ∧
    wr 0x030 = .next { u with title0 := Reg.holds v } ∧ wr 0x034 = .next { u with title1 := Reg.holds v } ∧
    wr 0x038 = .next { u with title2 := Reg.holds v } ∧
    (v.toNat ≤ Config.bcCap → wr 0x03C = .next { u with bcLen := v }) ∧
    (Config.bcCap < v.toNat → wr 0x03C = .next u) ∧
    wr 0x040 = .next { u with ckEmb := Reg.holds (v.setWidth 16) } ∧
    wr 0x044 = .next { u with ckOff := v } ∧ wr 0x048 = .next { u with ckLen := v } ∧
    ∀ i, i < 1042 → ∃ t, wr (0x1000 + 4 * i) = .next t ∧ Store.lookup t.kt i = some v ∧
      (∀ j, j ≠ i → Store.lookup t.kt j = Store.lookup s.kt j) ∧ t = { u with kt := t.kt }

/-- R35: a host write to `VALID` replaces bits 0 to 4 and 6, keeps bits 5 and 7, and ignores the rest. -/
def Obligations.ValidWriteKeepsTheReadOnlyBits : Prop :=
  ∀ (v : Valid) (x : Word),
    validWord (v.hostWrite x) = (x &&& 0x5F#32) ||| (validWord v &&& 0xA0#32)

/-- R67, R218: what the host writes to a data register reads back, and no other register's read changes. -/
def Obligations.HostWriteReadsBackAndTouchesNoOther : Prop :=
  ∀ (s : State) (r : HostReg) (v : Word),
    (r ∈ [HostReg.blkLo, .blkHi, .kc0, .kc1, .kc2, .gamecode, .bootOff, .bootCnt, .title0, .title1, .title2,
        .ckOff, .ckLen] → readReg r (writeReg r v s) = v) ∧
    (∀ i, readReg (.kt i) (writeReg (.kt i) v s) = v) ∧
    (readReg .ckEmb (writeReg .ckEmb v s)).toNat = v.toNat % 65536 ∧
    (v.toNat ≤ Config.bcCap → readReg .bcLen (writeReg .bcLen v s) = v) ∧
    ∀ q, q ≠ r → readReg q (writeReg r v s) = readReg q s

/-! ### Invariants -/

/-- The invariant holds at reset. -/
def Obligations.InvariantHoldsAtReset : Prop := EngineInvariant State.reset

/-- R27, R29, R32, R230, R236: every step keeps the invariant: the stores in canonical form within their
bounds, `BC_LEN <= BC_CAP`, `OUT` written below `OUT_LEN`, and a fault record that the mode and the table
of R230 allow. -/
def Obligations.StepKeepsTheInvariant : Prop :=
  ∀ s t : State, EngineInvariant s → step s = .next t → EngineInvariant t

/-! ### The output space and the inputs, from the host's side -/

/-- R77, R178, U19: what a host read of a byte of `OUT` returns, in either mode: below `OUT_LEN` the byte
that DUMP wrote, and at or beyond it a free value; nothing else changes but the host's side of the bus. In
a state that meets the invariant every byte below `OUT_LEN` was written. A DUMP followed by a read of `OUT`
gives that byte of the boot code. The free value and where it applies are the model's: log entries 1, 10. -/
def Obligations.HostReadsOfOutReturnTheDump : Prop :=
  (∀ (s : State) (rest : List HostAction) (a : Nat), s.pending = .readOut a :: rest →
    ∃ t, step s = .next t ∧
      t = { s with pending := rest, draws := s.draws + 1, readData := t.readData } ∧
      (∀ v, a < s.outLen.toNat → Store.lookup s.out a = some v → t.readData.toNat = v.toNat) ∧
      (EngineInvariant s → a < s.outLen.toNat →
        ∃ v, Store.lookup s.out a = some v ∧ t.readData.toNat = v.toNat) ∧
      (s.outLen.toNat ≤ a ∨ Store.lookup s.out a = none →
        t.readData.toNat = (Config.anyValue (s.draws + 1) 0 (.out a)).toNat % 256)) ∧
  ∀ (s : State) (rest : List HostAction) (a : Nat), s.mode = .idle → s.valid.bc = true →
    s.bcLen.toNat ≤ Config.bcCap → a < 8 * s.bcLen.toNat →
    ∃ t u, exec .dump s = .next t ∧ step { t with pending := .readOut a :: rest } = .next u ∧
      u.readData.toNat = (getBc s (a / 8)).toNat / 2 ^ (8 * (a % 8)) % 256

/-- R6, R14, R72, R77, R78: a supply of an input that the run has not used, or after the run has ended, or of
the bytes the input has, leaves a space of the supplied length whose bytes are the supplied ones, and changes
nothing else but the host's side of the bus; a change inside the run is refused (U22). That the supply is an
action of its own and the reading of R78 are the model's: log entries 3, 8, 9. -/
def Obligations.SupplyGivesTheInputItsBytes : Prop :=
  ∀ (s : State) (rest : List HostAction) (bytes : List Byte),
    (s.pending = .supplyImg bytes :: rest →
      (s.imgUsed = false ∨ s.mode = .faulted ∨ hostIsDone rest ∨ s.img = Space.ofBytes bytes →
        ∃ t, step s = .next t ∧
          t.img.len = bytes.length ∧ memRead t.img 0 bytes.length = bytes ∧
          (∀ a v, bytes[a]? = some v → t.img.byte a = v) ∧
          t = { s with pending := rest, draws := s.draws + 1, img := t.img }) ∧
      (s.imgUsed = true → s.mode = .idle → ¬hostIsDone rest → s.img ≠ Space.ofBytes bytes →
        step s = .refused .inputChangedInRun)) ∧
    (s.pending = .supplyKey bytes :: rest →
      (s.keyUsed = false ∨ s.mode = .faulted ∨ hostIsDone rest ∨ s.key = Space.ofBytes bytes →
        ∃ t, step s = .next t ∧
          t.key.len = bytes.length ∧ memRead t.key 0 bytes.length = bytes ∧
          (∀ a v, bytes[a]? = some v → t.key.byte a = v) ∧
          t = { s with pending := rest, draws := s.draws + 1, key := t.key }) ∧
      (s.keyUsed = true → s.mode = .idle → ¬hostIsDone rest → s.key ≠ Space.ofBytes bytes →
        step s = .refused .inputChangedInRun))
end

