-- ==== Sys2Proof/Laws/State.lean ====
section
/-! SUPPORT. One lemma per field per named update of the state, each true by definition. -/

namespace Sys2Proof.Machine

/-! ### Fault entry (R236) -/

@[simp] theorem raise_blkLo (k : FaultKind) (info op : Byte) (s : State) :
    (raise k info op s).blkLo = s.blkLo := rfl
@[simp] theorem raise_blkHi (k : FaultKind) (info op : Byte) (s : State) :
    (raise k info op s).blkHi = s.blkHi := rfl
@[simp] theorem raise_kc0 (k : FaultKind) (info op : Byte) (s : State) :
    (raise k info op s).kc0 = s.kc0 := rfl
@[simp] theorem raise_kc1 (k : FaultKind) (info op : Byte) (s : State) :
    (raise k info op s).kc1 = s.kc1 := rfl
@[simp] theorem raise_kc2 (k : FaultKind) (info op : Byte) (s : State) :
    (raise k info op s).kc2 = s.kc2 := rfl
@[simp] theorem raise_kt (k : FaultKind) (info op : Byte) (s : State) :
    (raise k info op s).kt = s.kt := rfl
@[simp] theorem raise_bc (k : FaultKind) (info op : Byte) (s : State) :
    (raise k info op s).bc = s.bc := rfl
@[simp] theorem raise_bcLen (k : FaultKind) (info op : Byte) (s : State) :
    (raise k info op s).bcLen = s.bcLen := rfl
@[simp] theorem raise_title0 (k : FaultKind) (info op : Byte) (s : State) :
    (raise k info op s).title0 = s.title0 := rfl
@[simp] theorem raise_title1 (k : FaultKind) (info op : Byte) (s : State) :
    (raise k info op s).title1 = s.title1 := rfl
@[simp] theorem raise_title2 (k : FaultKind) (info op : Byte) (s : State) :
    (raise k info op s).title2 = s.title2 := rfl
@[simp] theorem raise_gamecode (k : FaultKind) (info op : Byte) (s : State) :
    (raise k info op s).gamecode = s.gamecode := rfl
@[simp] theorem raise_bootOff (k : FaultKind) (info op : Byte) (s : State) :
    (raise k info op s).bootOff = s.bootOff := rfl
@[simp] theorem raise_bootCnt (k : FaultKind) (info op : Byte) (s : State) :
    (raise k info op s).bootCnt = s.bootCnt := rfl
@[simp] theorem raise_ckEmb (k : FaultKind) (info op : Byte) (s : State) :
    (raise k info op s).ckEmb = s.ckEmb := rfl
@[simp] theorem raise_ckOff (k : FaultKind) (info op : Byte) (s : State) :
    (raise k info op s).ckOff = s.ckOff := rfl
@[simp] theorem raise_ckLen (k : FaultKind) (info op : Byte) (s : State) :
    (raise k info op s).ckLen = s.ckLen := rfl
@[simp] theorem raise_securePresent (k : FaultKind) (info op : Byte) (s : State) :
    (raise k info op s).securePresent = s.securePresent := rfl
@[simp] theorem raise_secureEncrypted (k : FaultKind) (info op : Byte) (s : State) :
    (raise k info op s).secureEncrypted = s.secureEncrypted := rfl
@[simp] theorem raise_crcMatch (k : FaultKind) (info op : Byte) (s : State) :
    (raise k info op s).crcMatch = s.crcMatch := rfl
@[simp] theorem raise_crcCalc (k : FaultKind) (info op : Byte) (s : State) :
    (raise k info op s).crcCalc = s.crcCalc := rfl
@[simp] theorem raise_outLen (k : FaultKind) (info op : Byte) (s : State) :
    (raise k info op s).outLen = s.outLen := rfl
@[simp] theorem raise_valid (k : FaultKind) (info op : Byte) (s : State) :
    (raise k info op s).valid = s.valid := rfl
@[simp] theorem raise_fault (k : FaultKind) (info op : Byte) (s : State) :
    (raise k info op s).fault = { code := k.code, info := info, op := op } := rfl
@[simp] theorem raise_mode (k : FaultKind) (info op : Byte) (s : State) :
    (raise k info op s).mode = .faulted := rfl
@[simp] theorem raise_out (k : FaultKind) (info op : Byte) (s : State) :
    (raise k info op s).out = s.out := rfl
@[simp] theorem raise_img (k : FaultKind) (info op : Byte) (s : State) :
    (raise k info op s).img = s.img := rfl
@[simp] theorem raise_key (k : FaultKind) (info op : Byte) (s : State) :
    (raise k info op s).key = s.key := rfl
@[simp] theorem raise_pending (k : FaultKind) (info op : Byte) (s : State) :
    (raise k info op s).pending = s.pending := rfl
@[simp] theorem raise_readData (k : FaultKind) (info op : Byte) (s : State) :
    (raise k info op s).readData = s.readData := rfl
@[simp] theorem raise_draws (k : FaultKind) (info op : Byte) (s : State) :
    (raise k info op s).draws = s.draws := rfl
@[simp] theorem raise_imgUsed (k : FaultKind) (info op : Byte) (s : State) :
    (raise k info op s).imgUsed = s.imgUsed := rfl
@[simp] theorem raise_keyUsed (k : FaultKind) (info op : Byte) (s : State) :
    (raise k info op s).keyUsed = s.keyUsed := rfl

/-! ### Reset (R42) -/

@[simp] theorem resetEngine_blkLo (s : State) : (resetEngine s).blkLo = State.reset.blkLo := rfl
@[simp] theorem resetEngine_blkHi (s : State) : (resetEngine s).blkHi = State.reset.blkHi := rfl
@[simp] theorem resetEngine_kc0 (s : State) : (resetEngine s).kc0 = State.reset.kc0 := rfl
@[simp] theorem resetEngine_kc1 (s : State) : (resetEngine s).kc1 = State.reset.kc1 := rfl
@[simp] theorem resetEngine_kc2 (s : State) : (resetEngine s).kc2 = State.reset.kc2 := rfl
@[simp] theorem resetEngine_kt (s : State) : (resetEngine s).kt = State.reset.kt := rfl
@[simp] theorem resetEngine_bc (s : State) : (resetEngine s).bc = State.reset.bc := rfl
@[simp] theorem resetEngine_bcLen (s : State) : (resetEngine s).bcLen = State.reset.bcLen := rfl
@[simp] theorem resetEngine_title0 (s : State) : (resetEngine s).title0 = State.reset.title0 := rfl
@[simp] theorem resetEngine_title1 (s : State) : (resetEngine s).title1 = State.reset.title1 := rfl
@[simp] theorem resetEngine_title2 (s : State) : (resetEngine s).title2 = State.reset.title2 := rfl
@[simp] theorem resetEngine_gamecode (s : State) : (resetEngine s).gamecode = State.reset.gamecode := rfl
@[simp] theorem resetEngine_bootOff (s : State) : (resetEngine s).bootOff = State.reset.bootOff := rfl
@[simp] theorem resetEngine_bootCnt (s : State) : (resetEngine s).bootCnt = State.reset.bootCnt := rfl
@[simp] theorem resetEngine_ckEmb (s : State) : (resetEngine s).ckEmb = State.reset.ckEmb := rfl
@[simp] theorem resetEngine_ckOff (s : State) : (resetEngine s).ckOff = State.reset.ckOff := rfl
@[simp] theorem resetEngine_ckLen (s : State) : (resetEngine s).ckLen = State.reset.ckLen := rfl
@[simp] theorem resetEngine_securePresent (s : State) : (resetEngine s).securePresent = State.reset.securePresent := rfl
@[simp] theorem resetEngine_secureEncrypted (s : State) : (resetEngine s).secureEncrypted = State.reset.secureEncrypted := rfl
@[simp] theorem resetEngine_crcMatch (s : State) : (resetEngine s).crcMatch = State.reset.crcMatch := rfl
@[simp] theorem resetEngine_crcCalc (s : State) : (resetEngine s).crcCalc = State.reset.crcCalc := rfl
@[simp] theorem resetEngine_outLen (s : State) : (resetEngine s).outLen = State.reset.outLen := rfl
@[simp] theorem resetEngine_valid (s : State) : (resetEngine s).valid = State.reset.valid := rfl
@[simp] theorem resetEngine_fault (s : State) : (resetEngine s).fault = State.reset.fault := rfl
@[simp] theorem resetEngine_mode (s : State) : (resetEngine s).mode = State.reset.mode := rfl
@[simp] theorem resetEngine_out (s : State) : (resetEngine s).out = s.out := rfl
@[simp] theorem resetEngine_img (s : State) : (resetEngine s).img = s.img := rfl
@[simp] theorem resetEngine_key (s : State) : (resetEngine s).key = s.key := rfl
@[simp] theorem resetEngine_pending (s : State) : (resetEngine s).pending = s.pending := rfl
@[simp] theorem resetEngine_readData (s : State) : (resetEngine s).readData = s.readData := rfl
@[simp] theorem resetEngine_draws (s : State) : (resetEngine s).draws = s.draws := rfl
@[simp] theorem resetEngine_imgUsed (s : State) : (resetEngine s).imgUsed = State.reset.imgUsed := rfl
@[simp] theorem resetEngine_keyUsed (s : State) : (resetEngine s).keyUsed = State.reset.keyUsed := rfl

/-! ### Taking up a host action -/

@[simp] theorem accept_blkLo (rest : List HostAction) (s : State) : (accept rest s).blkLo = s.blkLo := rfl
@[simp] theorem accept_blkHi (rest : List HostAction) (s : State) : (accept rest s).blkHi = s.blkHi := rfl
@[simp] theorem accept_kc0 (rest : List HostAction) (s : State) : (accept rest s).kc0 = s.kc0 := rfl
@[simp] theorem accept_kc1 (rest : List HostAction) (s : State) : (accept rest s).kc1 = s.kc1 := rfl
@[simp] theorem accept_kc2 (rest : List HostAction) (s : State) : (accept rest s).kc2 = s.kc2 := rfl
@[simp] theorem accept_kt (rest : List HostAction) (s : State) : (accept rest s).kt = s.kt := rfl
@[simp] theorem accept_bc (rest : List HostAction) (s : State) : (accept rest s).bc = s.bc := rfl
@[simp] theorem accept_bcLen (rest : List HostAction) (s : State) : (accept rest s).bcLen = s.bcLen := rfl
@[simp] theorem accept_title0 (rest : List HostAction) (s : State) : (accept rest s).title0 = s.title0 := rfl
@[simp] theorem accept_title1 (rest : List HostAction) (s : State) : (accept rest s).title1 = s.title1 := rfl
@[simp] theorem accept_title2 (rest : List HostAction) (s : State) : (accept rest s).title2 = s.title2 := rfl
@[simp] theorem accept_gamecode (rest : List HostAction) (s : State) : (accept rest s).gamecode = s.gamecode := rfl
@[simp] theorem accept_bootOff (rest : List HostAction) (s : State) : (accept rest s).bootOff = s.bootOff := rfl
@[simp] theorem accept_bootCnt (rest : List HostAction) (s : State) : (accept rest s).bootCnt = s.bootCnt := rfl
@[simp] theorem accept_ckEmb (rest : List HostAction) (s : State) : (accept rest s).ckEmb = s.ckEmb := rfl
@[simp] theorem accept_ckOff (rest : List HostAction) (s : State) : (accept rest s).ckOff = s.ckOff := rfl
@[simp] theorem accept_ckLen (rest : List HostAction) (s : State) : (accept rest s).ckLen = s.ckLen := rfl
@[simp] theorem accept_securePresent (rest : List HostAction) (s : State) : (accept rest s).securePresent = s.securePresent := rfl
@[simp] theorem accept_secureEncrypted (rest : List HostAction) (s : State) : (accept rest s).secureEncrypted = s.secureEncrypted := rfl
@[simp] theorem accept_crcMatch (rest : List HostAction) (s : State) : (accept rest s).crcMatch = s.crcMatch := rfl
@[simp] theorem accept_crcCalc (rest : List HostAction) (s : State) : (accept rest s).crcCalc = s.crcCalc := rfl
@[simp] theorem accept_outLen (rest : List HostAction) (s : State) : (accept rest s).outLen = s.outLen := rfl
@[simp] theorem accept_valid (rest : List HostAction) (s : State) : (accept rest s).valid = s.valid := rfl
@[simp] theorem accept_fault (rest : List HostAction) (s : State) : (accept rest s).fault = s.fault := rfl
@[simp] theorem accept_mode (rest : List HostAction) (s : State) : (accept rest s).mode = s.mode := rfl
@[simp] theorem accept_out (rest : List HostAction) (s : State) : (accept rest s).out = s.out := rfl
@[simp] theorem accept_img (rest : List HostAction) (s : State) : (accept rest s).img = s.img := rfl
@[simp] theorem accept_key (rest : List HostAction) (s : State) : (accept rest s).key = s.key := rfl
@[simp] theorem accept_pending (rest : List HostAction) (s : State) : (accept rest s).pending = rest := rfl
@[simp] theorem accept_readData (rest : List HostAction) (s : State) : (accept rest s).readData = s.readData := rfl
@[simp] theorem accept_draws (rest : List HostAction) (s : State) : (accept rest s).draws = s.draws + 1 := rfl
@[simp] theorem accept_imgUsed (rest : List HostAction) (s : State) : (accept rest s).imgUsed = s.imgUsed := rfl
@[simp] theorem accept_keyUsed (rest : List HostAction) (s : State) : (accept rest s).keyUsed = s.keyUsed := rfl

/-! ### Writing `BLK` (R22) -/

@[simp] theorem setBlk_blkLo (b : Block) (s : State) : (setBlk b s).blkLo = Reg.holds (loHalf b) := rfl
@[simp] theorem setBlk_blkHi (b : Block) (s : State) : (setBlk b s).blkHi = Reg.holds (hiHalf b) := rfl
@[simp] theorem setBlk_kc0 (b : Block) (s : State) : (setBlk b s).kc0 = s.kc0 := rfl
@[simp] theorem setBlk_kc1 (b : Block) (s : State) : (setBlk b s).kc1 = s.kc1 := rfl
@[simp] theorem setBlk_kc2 (b : Block) (s : State) : (setBlk b s).kc2 = s.kc2 := rfl
@[simp] theorem setBlk_kt (b : Block) (s : State) : (setBlk b s).kt = s.kt := rfl
@[simp] theorem setBlk_bc (b : Block) (s : State) : (setBlk b s).bc = s.bc := rfl
@[simp] theorem setBlk_bcLen (b : Block) (s : State) : (setBlk b s).bcLen = s.bcLen := rfl
@[simp] theorem setBlk_title0 (b : Block) (s : State) : (setBlk b s).title0 = s.title0 := rfl
@[simp] theorem setBlk_title1 (b : Block) (s : State) : (setBlk b s).title1 = s.title1 := rfl
@[simp] theorem setBlk_title2 (b : Block) (s : State) : (setBlk b s).title2 = s.title2 := rfl
@[simp] theorem setBlk_gamecode (b : Block) (s : State) : (setBlk b s).gamecode = s.gamecode := rfl
@[simp] theorem setBlk_bootOff (b : Block) (s : State) : (setBlk b s).bootOff = s.bootOff := rfl
@[simp] theorem setBlk_bootCnt (b : Block) (s : State) : (setBlk b s).bootCnt = s.bootCnt := rfl
@[simp] theorem setBlk_ckEmb (b : Block) (s : State) : (setBlk b s).ckEmb = s.ckEmb := rfl
@[simp] theorem setBlk_ckOff (b : Block) (s : State) : (setBlk b s).ckOff = s.ckOff := rfl
@[simp] theorem setBlk_ckLen (b : Block) (s : State) : (setBlk b s).ckLen = s.ckLen := rfl
@[simp] theorem setBlk_securePresent (b : Block) (s : State) : (setBlk b s).securePresent = s.securePresent := rfl
@[simp] theorem setBlk_secureEncrypted (b : Block) (s : State) : (setBlk b s).secureEncrypted = s.secureEncrypted := rfl
@[simp] theorem setBlk_crcMatch (b : Block) (s : State) : (setBlk b s).crcMatch = s.crcMatch := rfl
@[simp] theorem setBlk_crcCalc (b : Block) (s : State) : (setBlk b s).crcCalc = s.crcCalc := rfl
@[simp] theorem setBlk_outLen (b : Block) (s : State) : (setBlk b s).outLen = s.outLen := rfl
@[simp] theorem setBlk_valid (b : Block) (s : State) : (setBlk b s).valid = s.valid := rfl
@[simp] theorem setBlk_fault (b : Block) (s : State) : (setBlk b s).fault = s.fault := rfl
@[simp] theorem setBlk_mode (b : Block) (s : State) : (setBlk b s).mode = s.mode := rfl
@[simp] theorem setBlk_out (b : Block) (s : State) : (setBlk b s).out = s.out := rfl
@[simp] theorem setBlk_img (b : Block) (s : State) : (setBlk b s).img = s.img := rfl
@[simp] theorem setBlk_key (b : Block) (s : State) : (setBlk b s).key = s.key := rfl
@[simp] theorem setBlk_pending (b : Block) (s : State) : (setBlk b s).pending = s.pending := rfl
@[simp] theorem setBlk_readData (b : Block) (s : State) : (setBlk b s).readData = s.readData := rfl
@[simp] theorem setBlk_draws (b : Block) (s : State) : (setBlk b s).draws = s.draws := rfl
@[simp] theorem setBlk_imgUsed (b : Block) (s : State) : (setBlk b s).imgUsed = s.imgUsed := rfl
@[simp] theorem setBlk_keyUsed (b : Block) (s : State) : (setBlk b s).keyUsed = s.keyUsed := rfl

/-! ### Fixing the inputs of a run (R72) -/

@[simp] theorem noteInputs_blkLo (i : Instr) (s : State) : (noteInputs i s).blkLo = s.blkLo := by
  unfold noteInputs; split <;> rfl
@[simp] theorem noteInputs_blkHi (i : Instr) (s : State) : (noteInputs i s).blkHi = s.blkHi := by
  unfold noteInputs; split <;> rfl
@[simp] theorem noteInputs_kc0 (i : Instr) (s : State) : (noteInputs i s).kc0 = s.kc0 := by
  unfold noteInputs; split <;> rfl
@[simp] theorem noteInputs_kc1 (i : Instr) (s : State) : (noteInputs i s).kc1 = s.kc1 := by
  unfold noteInputs; split <;> rfl
@[simp] theorem noteInputs_kc2 (i : Instr) (s : State) : (noteInputs i s).kc2 = s.kc2 := by
  unfold noteInputs; split <;> rfl
@[simp] theorem noteInputs_kt (i : Instr) (s : State) : (noteInputs i s).kt = s.kt := by
  unfold noteInputs; split <;> rfl
@[simp] theorem noteInputs_bc (i : Instr) (s : State) : (noteInputs i s).bc = s.bc := by
  unfold noteInputs; split <;> rfl
@[simp] theorem noteInputs_bcLen (i : Instr) (s : State) : (noteInputs i s).bcLen = s.bcLen := by
  unfold noteInputs; split <;> rfl
@[simp] theorem noteInputs_title0 (i : Instr) (s : State) : (noteInputs i s).title0 = s.title0 := by
  unfold noteInputs; split <;> rfl
@[simp] theorem noteInputs_title1 (i : Instr) (s : State) : (noteInputs i s).title1 = s.title1 := by
  unfold noteInputs; split <;> rfl
@[simp] theorem noteInputs_title2 (i : Instr) (s : State) : (noteInputs i s).title2 = s.title2 := by
  unfold noteInputs; split <;> rfl
@[simp] theorem noteInputs_gamecode (i : Instr) (s : State) : (noteInputs i s).gamecode = s.gamecode := by
  unfold noteInputs; split <;> rfl
@[simp] theorem noteInputs_bootOff (i : Instr) (s : State) : (noteInputs i s).bootOff = s.bootOff := by
  unfold noteInputs; split <;> rfl
@[simp] theorem noteInputs_bootCnt (i : Instr) (s : State) : (noteInputs i s).bootCnt = s.bootCnt := by
  unfold noteInputs; split <;> rfl
@[simp] theorem noteInputs_ckEmb (i : Instr) (s : State) : (noteInputs i s).ckEmb = s.ckEmb := by
  unfold noteInputs; split <;> rfl
@[simp] theorem noteInputs_ckOff (i : Instr) (s : State) : (noteInputs i s).ckOff = s.ckOff := by
  unfold noteInputs; split <;> rfl
@[simp] theorem noteInputs_ckLen (i : Instr) (s : State) : (noteInputs i s).ckLen = s.ckLen := by
  unfold noteInputs; split <;> rfl
@[simp] theorem noteInputs_securePresent (i : Instr) (s : State) : (noteInputs i s).securePresent = s.securePresent := by
  unfold noteInputs; split <;> rfl
@[simp] theorem noteInputs_secureEncrypted (i : Instr) (s : State) : (noteInputs i s).secureEncrypted = s.secureEncrypted := by
  unfold noteInputs; split <;> rfl
@[simp] theorem noteInputs_crcMatch (i : Instr) (s : State) : (noteInputs i s).crcMatch = s.crcMatch := by
  unfold noteInputs; split <;> rfl
@[simp] theorem noteInputs_crcCalc (i : Instr) (s : State) : (noteInputs i s).crcCalc = s.crcCalc := by
  unfold noteInputs; split <;> rfl
@[simp] theorem noteInputs_outLen (i : Instr) (s : State) : (noteInputs i s).outLen = s.outLen := by
  unfold noteInputs; split <;> rfl
@[simp] theorem noteInputs_valid (i : Instr) (s : State) : (noteInputs i s).valid = s.valid := by
  unfold noteInputs; split <;> rfl
@[simp] theorem noteInputs_fault (i : Instr) (s : State) : (noteInputs i s).fault = s.fault := by
  unfold noteInputs; split <;> rfl
@[simp] theorem noteInputs_mode (i : Instr) (s : State) : (noteInputs i s).mode = s.mode := by
  unfold noteInputs; split <;> rfl
@[simp] theorem noteInputs_out (i : Instr) (s : State) : (noteInputs i s).out = s.out := by
  unfold noteInputs; split <;> rfl
@[simp] theorem noteInputs_img (i : Instr) (s : State) : (noteInputs i s).img = s.img := by
  unfold noteInputs; split <;> rfl
@[simp] theorem noteInputs_key (i : Instr) (s : State) : (noteInputs i s).key = s.key := by
  unfold noteInputs; split <;> rfl
@[simp] theorem noteInputs_pending (i : Instr) (s : State) : (noteInputs i s).pending = s.pending := by
  unfold noteInputs; split <;> rfl
@[simp] theorem noteInputs_readData (i : Instr) (s : State) : (noteInputs i s).readData = s.readData := by
  unfold noteInputs; split <;> rfl
@[simp] theorem noteInputs_draws (i : Instr) (s : State) : (noteInputs i s).draws = s.draws := by
  unfold noteInputs; split <;> rfl
@[simp] theorem noteInputs_imgUsed (i : Instr) (s : State) :
    (noteInputs i s).imgUsed = (s.imgUsed || decide (s.mode = .idle) && readsImg i) := by
  unfold noteInputs; cases h : s.mode <;> simp
@[simp] theorem noteInputs_keyUsed (i : Instr) (s : State) :
    (noteInputs i s).keyUsed = (s.keyUsed || decide (s.mode = .idle) && readsKey i) := by
  unfold noteInputs; cases h : s.mode <;> simp

/-! ### Handing a read value to the host -/

@[simp] theorem returnRead_blkLo (v : Word) (s : State) : (returnRead v s).blkLo = s.blkLo := rfl
@[simp] theorem returnRead_blkHi (v : Word) (s : State) : (returnRead v s).blkHi = s.blkHi := rfl
@[simp] theorem returnRead_kc0 (v : Word) (s : State) : (returnRead v s).kc0 = s.kc0 := rfl
@[simp] theorem returnRead_kc1 (v : Word) (s : State) : (returnRead v s).kc1 = s.kc1 := rfl
@[simp] theorem returnRead_kc2 (v : Word) (s : State) : (returnRead v s).kc2 = s.kc2 := rfl
@[simp] theorem returnRead_kt (v : Word) (s : State) : (returnRead v s).kt = s.kt := rfl
@[simp] theorem returnRead_bc (v : Word) (s : State) : (returnRead v s).bc = s.bc := rfl
@[simp] theorem returnRead_bcLen (v : Word) (s : State) : (returnRead v s).bcLen = s.bcLen := rfl
@[simp] theorem returnRead_title0 (v : Word) (s : State) : (returnRead v s).title0 = s.title0 := rfl
@[simp] theorem returnRead_title1 (v : Word) (s : State) : (returnRead v s).title1 = s.title1 := rfl
@[simp] theorem returnRead_title2 (v : Word) (s : State) : (returnRead v s).title2 = s.title2 := rfl
@[simp] theorem returnRead_gamecode (v : Word) (s : State) : (returnRead v s).gamecode = s.gamecode := rfl
@[simp] theorem returnRead_bootOff (v : Word) (s : State) : (returnRead v s).bootOff = s.bootOff := rfl
@[simp] theorem returnRead_bootCnt (v : Word) (s : State) : (returnRead v s).bootCnt = s.bootCnt := rfl
@[simp] theorem returnRead_ckEmb (v : Word) (s : State) : (returnRead v s).ckEmb = s.ckEmb := rfl
@[simp] theorem returnRead_ckOff (v : Word) (s : State) : (returnRead v s).ckOff = s.ckOff := rfl
@[simp] theorem returnRead_ckLen (v : Word) (s : State) : (returnRead v s).ckLen = s.ckLen := rfl
@[simp] theorem returnRead_securePresent (v : Word) (s : State) : (returnRead v s).securePresent = s.securePresent := rfl
@[simp] theorem returnRead_secureEncrypted (v : Word) (s : State) : (returnRead v s).secureEncrypted = s.secureEncrypted := rfl
@[simp] theorem returnRead_crcMatch (v : Word) (s : State) : (returnRead v s).crcMatch = s.crcMatch := rfl
@[simp] theorem returnRead_crcCalc (v : Word) (s : State) : (returnRead v s).crcCalc = s.crcCalc := rfl
@[simp] theorem returnRead_outLen (v : Word) (s : State) : (returnRead v s).outLen = s.outLen := rfl
@[simp] theorem returnRead_valid (v : Word) (s : State) : (returnRead v s).valid = s.valid := rfl
@[simp] theorem returnRead_fault (v : Word) (s : State) : (returnRead v s).fault = s.fault := rfl
@[simp] theorem returnRead_mode (v : Word) (s : State) : (returnRead v s).mode = s.mode := rfl
@[simp] theorem returnRead_out (v : Word) (s : State) : (returnRead v s).out = s.out := rfl
@[simp] theorem returnRead_img (v : Word) (s : State) : (returnRead v s).img = s.img := rfl
@[simp] theorem returnRead_key (v : Word) (s : State) : (returnRead v s).key = s.key := rfl
@[simp] theorem returnRead_pending (v : Word) (s : State) : (returnRead v s).pending = s.pending := rfl
@[simp] theorem returnRead_readData (v : Word) (s : State) : (returnRead v s).readData = v := rfl
@[simp] theorem returnRead_draws (v : Word) (s : State) : (returnRead v s).draws = s.draws := rfl
@[simp] theorem returnRead_imgUsed (v : Word) (s : State) : (returnRead v s).imgUsed = s.imgUsed := rfl
@[simp] theorem returnRead_keyUsed (v : Word) (s : State) : (returnRead v s).keyUsed = s.keyUsed := rfl

/-! ### Supplying the image (R77) -/

@[simp] theorem supplyImage_blkLo (bytes : List Byte) (s : State) : (supplyImage bytes s).blkLo = s.blkLo := rfl
@[simp] theorem supplyImage_blkHi (bytes : List Byte) (s : State) : (supplyImage bytes s).blkHi = s.blkHi := rfl
@[simp] theorem supplyImage_kc0 (bytes : List Byte) (s : State) : (supplyImage bytes s).kc0 = s.kc0 := rfl
@[simp] theorem supplyImage_kc1 (bytes : List Byte) (s : State) : (supplyImage bytes s).kc1 = s.kc1 := rfl
@[simp] theorem supplyImage_kc2 (bytes : List Byte) (s : State) : (supplyImage bytes s).kc2 = s.kc2 := rfl
@[simp] theorem supplyImage_kt (bytes : List Byte) (s : State) : (supplyImage bytes s).kt = s.kt := rfl
@[simp] theorem supplyImage_bc (bytes : List Byte) (s : State) : (supplyImage bytes s).bc = s.bc := rfl
@[simp] theorem supplyImage_bcLen (bytes : List Byte) (s : State) : (supplyImage bytes s).bcLen = s.bcLen := rfl
@[simp] theorem supplyImage_title0 (bytes : List Byte) (s : State) : (supplyImage bytes s).title0 = s.title0 := rfl
@[simp] theorem supplyImage_title1 (bytes : List Byte) (s : State) : (supplyImage bytes s).title1 = s.title1 := rfl
@[simp] theorem supplyImage_title2 (bytes : List Byte) (s : State) : (supplyImage bytes s).title2 = s.title2 := rfl
@[simp] theorem supplyImage_gamecode (bytes : List Byte) (s : State) : (supplyImage bytes s).gamecode = s.gamecode := rfl
@[simp] theorem supplyImage_bootOff (bytes : List Byte) (s : State) : (supplyImage bytes s).bootOff = s.bootOff := rfl
@[simp] theorem supplyImage_bootCnt (bytes : List Byte) (s : State) : (supplyImage bytes s).bootCnt = s.bootCnt := rfl
@[simp] theorem supplyImage_ckEmb (bytes : List Byte) (s : State) : (supplyImage bytes s).ckEmb = s.ckEmb := rfl
@[simp] theorem supplyImage_ckOff (bytes : List Byte) (s : State) : (supplyImage bytes s).ckOff = s.ckOff := rfl
@[simp] theorem supplyImage_ckLen (bytes : List Byte) (s : State) : (supplyImage bytes s).ckLen = s.ckLen := rfl
@[simp] theorem supplyImage_securePresent (bytes : List Byte) (s : State) : (supplyImage bytes s).securePresent = s.securePresent := rfl
@[simp] theorem supplyImage_secureEncrypted (bytes : List Byte) (s : State) : (supplyImage bytes s).secureEncrypted = s.secureEncrypted := rfl
@[simp] theorem supplyImage_crcMatch (bytes : List Byte) (s : State) : (supplyImage bytes s).crcMatch = s.crcMatch := rfl
@[simp] theorem supplyImage_crcCalc (bytes : List Byte) (s : State) : (supplyImage bytes s).crcCalc = s.crcCalc := rfl
@[simp] theorem supplyImage_outLen (bytes : List Byte) (s : State) : (supplyImage bytes s).outLen = s.outLen := rfl
@[simp] theorem supplyImage_valid (bytes : List Byte) (s : State) : (supplyImage bytes s).valid = s.valid := rfl
@[simp] theorem supplyImage_fault (bytes : List Byte) (s : State) : (supplyImage bytes s).fault = s.fault := rfl
@[simp] theorem supplyImage_mode (bytes : List Byte) (s : State) : (supplyImage bytes s).mode = s.mode := rfl
@[simp] theorem supplyImage_out (bytes : List Byte) (s : State) : (supplyImage bytes s).out = s.out := rfl
@[simp] theorem supplyImage_img (bytes : List Byte) (s : State) : (supplyImage bytes s).img = Space.ofBytes bytes := rfl
@[simp] theorem supplyImage_key (bytes : List Byte) (s : State) : (supplyImage bytes s).key = s.key := rfl
@[simp] theorem supplyImage_pending (bytes : List Byte) (s : State) : (supplyImage bytes s).pending = s.pending := rfl
@[simp] theorem supplyImage_readData (bytes : List Byte) (s : State) : (supplyImage bytes s).readData = s.readData := rfl
@[simp] theorem supplyImage_draws (bytes : List Byte) (s : State) : (supplyImage bytes s).draws = s.draws := rfl
@[simp] theorem supplyImage_imgUsed (bytes : List Byte) (s : State) : (supplyImage bytes s).imgUsed = s.imgUsed := rfl
@[simp] theorem supplyImage_keyUsed (bytes : List Byte) (s : State) : (supplyImage bytes s).keyUsed = s.keyUsed := rfl

/-! ### Supplying the key blob (R77) -/

@[simp] theorem supplyBlob_blkLo (bytes : List Byte) (s : State) : (supplyBlob bytes s).blkLo = s.blkLo := rfl
@[simp] theorem supplyBlob_blkHi (bytes : List Byte) (s : State) : (supplyBlob bytes s).blkHi = s.blkHi := rfl
@[simp] theorem supplyBlob_kc0 (bytes : List Byte) (s : State) : (supplyBlob bytes s).kc0 = s.kc0 := rfl
@[simp] theorem supplyBlob_kc1 (bytes : List Byte) (s : State) : (supplyBlob bytes s).kc1 = s.kc1 := rfl
@[simp] theorem supplyBlob_kc2 (bytes : List Byte) (s : State) : (supplyBlob bytes s).kc2 = s.kc2 := rfl
@[simp] theorem supplyBlob_kt (bytes : List Byte) (s : State) : (supplyBlob bytes s).kt = s.kt := rfl
@[simp] theorem supplyBlob_bc (bytes : List Byte) (s : State) : (supplyBlob bytes s).bc = s.bc := rfl
@[simp] theorem supplyBlob_bcLen (bytes : List Byte) (s : State) : (supplyBlob bytes s).bcLen = s.bcLen := rfl
@[simp] theorem supplyBlob_title0 (bytes : List Byte) (s : State) : (supplyBlob bytes s).title0 = s.title0 := rfl
@[simp] theorem supplyBlob_title1 (bytes : List Byte) (s : State) : (supplyBlob bytes s).title1 = s.title1 := rfl
@[simp] theorem supplyBlob_title2 (bytes : List Byte) (s : State) : (supplyBlob bytes s).title2 = s.title2 := rfl
@[simp] theorem supplyBlob_gamecode (bytes : List Byte) (s : State) : (supplyBlob bytes s).gamecode = s.gamecode := rfl
@[simp] theorem supplyBlob_bootOff (bytes : List Byte) (s : State) : (supplyBlob bytes s).bootOff = s.bootOff := rfl
@[simp] theorem supplyBlob_bootCnt (bytes : List Byte) (s : State) : (supplyBlob bytes s).bootCnt = s.bootCnt := rfl
@[simp] theorem supplyBlob_ckEmb (bytes : List Byte) (s : State) : (supplyBlob bytes s).ckEmb = s.ckEmb := rfl
@[simp] theorem supplyBlob_ckOff (bytes : List Byte) (s : State) : (supplyBlob bytes s).ckOff = s.ckOff := rfl
@[simp] theorem supplyBlob_ckLen (bytes : List Byte) (s : State) : (supplyBlob bytes s).ckLen = s.ckLen := rfl
@[simp] theorem supplyBlob_securePresent (bytes : List Byte) (s : State) : (supplyBlob bytes s).securePresent = s.securePresent := rfl
@[simp] theorem supplyBlob_secureEncrypted (bytes : List Byte) (s : State) : (supplyBlob bytes s).secureEncrypted = s.secureEncrypted := rfl
@[simp] theorem supplyBlob_crcMatch (bytes : List Byte) (s : State) : (supplyBlob bytes s).crcMatch = s.crcMatch := rfl
@[simp] theorem supplyBlob_crcCalc (bytes : List Byte) (s : State) : (supplyBlob bytes s).crcCalc = s.crcCalc := rfl
@[simp] theorem supplyBlob_outLen (bytes : List Byte) (s : State) : (supplyBlob bytes s).outLen = s.outLen := rfl
@[simp] theorem supplyBlob_valid (bytes : List Byte) (s : State) : (supplyBlob bytes s).valid = s.valid := rfl
@[simp] theorem supplyBlob_fault (bytes : List Byte) (s : State) : (supplyBlob bytes s).fault = s.fault := rfl
@[simp] theorem supplyBlob_mode (bytes : List Byte) (s : State) : (supplyBlob bytes s).mode = s.mode := rfl
@[simp] theorem supplyBlob_out (bytes : List Byte) (s : State) : (supplyBlob bytes s).out = s.out := rfl
@[simp] theorem supplyBlob_img (bytes : List Byte) (s : State) : (supplyBlob bytes s).img = s.img := rfl
@[simp] theorem supplyBlob_key (bytes : List Byte) (s : State) : (supplyBlob bytes s).key = Space.ofBytes bytes := rfl
@[simp] theorem supplyBlob_pending (bytes : List Byte) (s : State) : (supplyBlob bytes s).pending = s.pending := rfl
@[simp] theorem supplyBlob_readData (bytes : List Byte) (s : State) : (supplyBlob bytes s).readData = s.readData := rfl
@[simp] theorem supplyBlob_draws (bytes : List Byte) (s : State) : (supplyBlob bytes s).draws = s.draws := rfl
@[simp] theorem supplyBlob_imgUsed (bytes : List Byte) (s : State) : (supplyBlob bytes s).imgUsed = s.imgUsed := rfl
@[simp] theorem supplyBlob_keyUsed (bytes : List Byte) (s : State) : (supplyBlob bytes s).keyUsed = s.keyUsed := rfl

/-! ### Placing a command word -/

@[simp] theorem withFetchWord_blkLo (s : State) (nbits w : Nat) :
    (s.withFetchWord nbits w).blkLo = s.blkLo := rfl
@[simp] theorem withFetchWord_blkHi (s : State) (nbits w : Nat) :
    (s.withFetchWord nbits w).blkHi = s.blkHi := rfl
@[simp] theorem withFetchWord_kc0 (s : State) (nbits w : Nat) :
    (s.withFetchWord nbits w).kc0 = s.kc0 := rfl
@[simp] theorem withFetchWord_kc1 (s : State) (nbits w : Nat) :
    (s.withFetchWord nbits w).kc1 = s.kc1 := rfl
@[simp] theorem withFetchWord_kc2 (s : State) (nbits w : Nat) :
    (s.withFetchWord nbits w).kc2 = s.kc2 := rfl
@[simp] theorem withFetchWord_kt (s : State) (nbits w : Nat) :
    (s.withFetchWord nbits w).kt = s.kt := rfl
@[simp] theorem withFetchWord_bc (s : State) (nbits w : Nat) :
    (s.withFetchWord nbits w).bc = s.bc := rfl
@[simp] theorem withFetchWord_bcLen (s : State) (nbits w : Nat) :
    (s.withFetchWord nbits w).bcLen = s.bcLen := rfl
@[simp] theorem withFetchWord_title0 (s : State) (nbits w : Nat) :
    (s.withFetchWord nbits w).title0 = s.title0 := rfl
@[simp] theorem withFetchWord_title1 (s : State) (nbits w : Nat) :
    (s.withFetchWord nbits w).title1 = s.title1 := rfl
@[simp] theorem withFetchWord_title2 (s : State) (nbits w : Nat) :
    (s.withFetchWord nbits w).title2 = s.title2 := rfl
@[simp] theorem withFetchWord_gamecode (s : State) (nbits w : Nat) :
    (s.withFetchWord nbits w).gamecode = s.gamecode := rfl
@[simp] theorem withFetchWord_bootOff (s : State) (nbits w : Nat) :
    (s.withFetchWord nbits w).bootOff = s.bootOff := rfl
@[simp] theorem withFetchWord_bootCnt (s : State) (nbits w : Nat) :
    (s.withFetchWord nbits w).bootCnt = s.bootCnt := rfl
@[simp] theorem withFetchWord_ckEmb (s : State) (nbits w : Nat) :
    (s.withFetchWord nbits w).ckEmb = s.ckEmb := rfl
@[simp] theorem withFetchWord_ckOff (s : State) (nbits w : Nat) :
    (s.withFetchWord nbits w).ckOff = s.ckOff := rfl
@[simp] theorem withFetchWord_ckLen (s : State) (nbits w : Nat) :
    (s.withFetchWord nbits w).ckLen = s.ckLen := rfl
@[simp] theorem withFetchWord_securePresent (s : State) (nbits w : Nat) :
    (s.withFetchWord nbits w).securePresent = s.securePresent := rfl
@[simp] theorem withFetchWord_secureEncrypted (s : State) (nbits w : Nat) :
    (s.withFetchWord nbits w).secureEncrypted = s.secureEncrypted := rfl
@[simp] theorem withFetchWord_crcMatch (s : State) (nbits w : Nat) :
    (s.withFetchWord nbits w).crcMatch = s.crcMatch := rfl
@[simp] theorem withFetchWord_crcCalc (s : State) (nbits w : Nat) :
    (s.withFetchWord nbits w).crcCalc = s.crcCalc := rfl
@[simp] theorem withFetchWord_outLen (s : State) (nbits w : Nat) :
    (s.withFetchWord nbits w).outLen = s.outLen := rfl
@[simp] theorem withFetchWord_valid (s : State) (nbits w : Nat) :
    (s.withFetchWord nbits w).valid = s.valid := rfl
@[simp] theorem withFetchWord_fault (s : State) (nbits w : Nat) :
    (s.withFetchWord nbits w).fault = s.fault := rfl
@[simp] theorem withFetchWord_mode (s : State) (nbits w : Nat) :
    (s.withFetchWord nbits w).mode = s.mode := rfl
@[simp] theorem withFetchWord_out (s : State) (nbits w : Nat) :
    (s.withFetchWord nbits w).out = s.out := rfl
@[simp] theorem withFetchWord_img (s : State) (nbits w : Nat) :
    (s.withFetchWord nbits w).img = s.img := rfl
@[simp] theorem withFetchWord_key (s : State) (nbits w : Nat) :
    (s.withFetchWord nbits w).key = s.key := rfl
@[simp] theorem withFetchWord_pending (s : State) (nbits w : Nat) :
    (s.withFetchWord nbits w).pending = .write 32 0x000 (BitVec.ofNat 32 (w % 2 ^ nbits)) :: s.pending := rfl
@[simp] theorem withFetchWord_readData (s : State) (nbits w : Nat) :
    (s.withFetchWord nbits w).readData = s.readData := rfl
@[simp] theorem withFetchWord_draws (s : State) (nbits w : Nat) :
    (s.withFetchWord nbits w).draws = s.draws := rfl
@[simp] theorem withFetchWord_imgUsed (s : State) (nbits w : Nat) :
    (s.withFetchWord nbits w).imgUsed = s.imgUsed := rfl
@[simp] theorem withFetchWord_keyUsed (s : State) (nbits w : Nat) :
    (s.withFetchWord nbits w).keyUsed = s.keyUsed := rfl

end Sys2Proof.Machine
end

