-- ==== Sys2Proof/Laws/Store.lean ====
section
/-! SUPPORT. The laws of the stores and of the input spaces: what a write leaves to be read, and that every
operation keeps the canonical form. -/

namespace Sys2Proof.Machine

variable {w : Nat}

@[simp] theorem Store.lookup_nil (a : Nat) : Store.lookup ([] : Store w) a = none := rfl

/-- A write is read back, and leaves every other cell alone. -/
theorem Store.lookup_put (m : Store w) (a : Nat) (v : BitVec w) (c : Nat) :
    Store.lookup (Store.put m a v) c = if c = a then some v else Store.lookup m c := by
  induction m with
  | nil =>
    by_cases h : c = a
    · simp [Store.put, Store.lookup, h]
    · simp [Store.put, Store.lookup, h]
  | cons p rest ih =>
    obtain ⟨b, u⟩ := p
    simp only [Store.put]
    split
    · simp only [Store.lookup]
      split_ifs <;> first | rfl | omega
    · split
      · subst a
        simp only [Store.lookup]
        split_ifs <;> rfl
      · simp only [Store.lookup, ih]
        split_ifs <;> first | rfl | omega

@[simp] theorem Store.lookup_put_same (m : Store w) (a : Nat) (v : BitVec w) :
    Store.lookup (Store.put m a v) a = some v := by simp [Store.lookup_put]

theorem Store.lookup_put_other (m : Store w) {a c : Nat} (v : BitVec w) (h : c ≠ a) :
    Store.lookup (Store.put m a v) c = Store.lookup m c := by simp [Store.lookup_put, h]

/-- Filling writes exactly the cells of its range. -/
theorem Store.lookup_fill (m : Store w) (start n : Nat) (f : Nat → BitVec w) (c : Nat) :
    Store.lookup (Store.fill m start n f) c =
      if start ≤ c ∧ c < start + n then some (f c) else Store.lookup m c := by
  induction n generalizing start with
  | zero => simp only [Store.fill]; rw [if_neg]; omega
  | succ n ih =>
    simp only [Store.fill, Store.lookup_put, ih]
    by_cases h : c = start
    · subst h; simp
    · simp only [h, if_false]
      congr 1
      simp only [eq_iff_iff]; omega

theorem Store.lookup_fill_in (m : Store w) {start n c : Nat} (f : Nat → BitVec w) (h : start ≤ c)
    (h' : c < start + n) : Store.lookup (Store.fill m start n f) c = some (f c) := by
  simp [Store.lookup_fill, h, h']

theorem Store.lookup_fill_out (m : Store w) {start n c : Nat} (f : Nat → BitVec w)
    (h : ¬(start ≤ c ∧ c < start + n)) : Store.lookup (Store.fill m start n f) c = Store.lookup m c := by
  simp only [Store.lookup_fill, h, if_false]

/-! ### The canonical form -/

theorem Store.risingIn_put (m : Store w) (lo hi a : Nat) (v : BitVec w) (hm : Store.risingIn lo hi m = true)
    (hlo : lo ≤ a) (hhi : a < hi) : Store.risingIn lo hi (Store.put m a v) = true := by
  induction m generalizing lo with
  | nil => simp [Store.put, Store.risingIn, hlo, hhi]
  | cons p rest ih =>
    obtain ⟨b, u⟩ := p
    simp only [Store.risingIn, Bool.and_eq_true, decide_eq_true_eq] at hm
    obtain ⟨⟨h1, h2⟩, h3⟩ := hm
    simp only [Store.put]
    split
    · simp only [Store.risingIn, Bool.and_eq_true, decide_eq_true_eq]
      exact ⟨⟨hlo, hhi⟩, ⟨by omega, h2⟩, h3⟩
    · split
      · subst a
        simp only [Store.risingIn, Bool.and_eq_true, decide_eq_true_eq]
        exact ⟨⟨h1, h2⟩, h3⟩
      · simp only [Store.risingIn, Bool.and_eq_true, decide_eq_true_eq]
        exact ⟨⟨h1, h2⟩, ih (b + 1) h3 (by omega)⟩

theorem Store.risingIn_fill (m : Store w) (hi start n : Nat) (f : Nat → BitVec w)
    (hm : Store.risingIn 0 hi m = true) (h : start + n ≤ hi) :
    Store.risingIn 0 hi (Store.fill m start n f) = true := by
  induction n generalizing start with
  | zero => exact hm
  | succ n ih => exact Store.risingIn_put _ _ _ _ _ (ih (start + 1) (by omega)) (by omega) (by omega)

theorem Store.rising_put (m : Store w) (lo a : Nat) (v : BitVec w) (hm : Store.rising lo m = true)
    (hlo : lo ≤ a) : Store.rising lo (Store.put m a v) = true := by
  induction m generalizing lo with
  | nil => simp [Store.put, Store.rising, hlo]
  | cons p rest ih =>
    obtain ⟨b, u⟩ := p
    simp only [Store.rising, Bool.and_eq_true, decide_eq_true_eq] at hm
    obtain ⟨h1, h3⟩ := hm
    simp only [Store.put]
    split
    · simp only [Store.rising, Bool.and_eq_true, decide_eq_true_eq]
      exact ⟨hlo, by omega, h3⟩
    · split
      · subst a
        simp only [Store.rising, Bool.and_eq_true, decide_eq_true_eq]
        exact ⟨h1, h3⟩
      · simp only [Store.rising, Bool.and_eq_true, decide_eq_true_eq]
        exact ⟨h1, ih (b + 1) h3 (by omega)⟩

/-- A write to `OUT` keeps its canonical form. -/
theorem Memory.wf_put (m : Memory) (a : Nat) (v : Byte) (hm : Memory.wf m = true) :
    Memory.wf (Store.put m a v) = true := Store.rising_put m 0 a v hm (Nat.zero_le a)

/-- A transfer to `OUT` keeps its canonical form. -/
theorem Memory.wf_fill (m : Memory) (start n : Nat) (f : Nat → Byte) (hm : Memory.wf m = true) :
    Memory.wf (Store.fill m start n f) = true := by
  induction n generalizing start with
  | zero => exact hm
  | succ n ih => exact Memory.wf_put _ _ _ (ih (start + 1))

/-- A store in canonical form lists nothing below its lower bound. -/
theorem Store.lookup_below (m : Store w) (lo hi a : Nat) (hm : Store.risingIn lo hi m = true) (h : a < lo) :
    Store.lookup m a = none := by
  cases m with
  | nil => rfl
  | cons p rest =>
    obtain ⟨b, u⟩ := p
    simp only [Store.risingIn, Bool.and_eq_true, decide_eq_true_eq] at hm
    simp only [Store.lookup]
    split_ifs <;> first | rfl | omega

/-! ### Input spaces -/

theorem Space.cellsFrom_risingIn (bytes : List Byte) (a hi : Nat) (h : a + bytes.length ≤ hi) (lo : Nat)
    (hlo : lo ≤ a) : Store.risingIn lo hi (Space.cellsFrom a bytes) = true := by
  induction bytes generalizing a lo with
  | nil => rfl
  | cons b rest ih =>
    simp only [List.length_cons] at h
    simp only [Space.cellsFrom]
    split
    · exact ih (a + 1) (by omega) lo (by omega)
    · simp only [Store.risingIn, Bool.and_eq_true, decide_eq_true_eq]
      exact ⟨⟨hlo, by omega⟩, ih (a + 1) (by omega) (a + 1) (Nat.le_refl _)⟩

theorem Space.cellsFrom_listed (bytes : List Byte) (a : Nat) :
    ((Space.cellsFrom a bytes).all fun c => c.2 != Space.unlisted) = true := by
  induction bytes generalizing a with
  | nil => rfl
  | cons b rest ih =>
    simp only [Space.cellsFrom]
    split
    · exact ih (a + 1)
    · rename_i h
      simp only [List.all_cons, Bool.and_eq_true]
      exact ⟨by simpa using h, ih (a + 1)⟩

/-- What the host supplies is in canonical form. -/
theorem Space.wf_ofBytes (bytes : List Byte) : (Space.ofBytes bytes).wf = true := by
  simp only [Space.wf, Space.ofBytes, Bool.and_eq_true]
  exact ⟨Space.cellsFrom_risingIn bytes 0 _ (by omega) 0 (Nat.le_refl _), Space.cellsFrom_listed bytes 0⟩

theorem Space.lookup_cellsFrom (bytes : List Byte) (a c : Nat) :
    (Store.lookup (Space.cellsFrom a bytes) c).getD Space.unlisted =
      if a ≤ c then bytes.getD (c - a) Space.unlisted else Space.unlisted := by
  induction bytes generalizing a with
  | nil => simp [Space.cellsFrom]
  | cons b rest ih =>
    have below : c ≤ a → Store.lookup (Space.cellsFrom (a + 1) rest) c = none := fun h =>
      Store.lookup_below _ (a + 1) (a + 1 + rest.length) c
        (Space.cellsFrom_risingIn rest (a + 1) _ (Nat.le_refl _) (a + 1) (Nat.le_refl _)) (by omega)
    simp only [Space.cellsFrom]
    rcases Nat.lt_trichotomy c a with h | h | h
    · have h1 : ¬a ≤ c := by omega
      rw [if_neg h1]
      split
      · simp [below (by omega)]
      · simp [Store.lookup, h, Nat.ne_of_lt h]
    · subst h
      split
      · rename_i h0; simp [below (Nat.le_refl _), h0]
      · simp [Store.lookup]
    · have e : c - a = (c - (a + 1)) + 1 := by omega
      rw [if_pos (show a ≤ c by omega), e, List.getD_cons_succ]
      have := ih (a + 1)
      rw [if_pos (show a + 1 ≤ c by omega)] at this
      split
      · exact this
      · simpa [Store.lookup, Nat.ne_of_gt h, Nat.not_lt_of_gt h] using this

/-- A byte of a supplied space is the byte the host supplied (R14). -/
theorem Space.byte_ofBytes (bytes : List Byte) (a : Nat) :
    (Space.ofBytes bytes).byte a = bytes.getD a Space.unlisted := by
  simpa [Space.byte, Space.ofBytes] using Space.lookup_cellsFrom bytes 0 a

end Sys2Proof.Machine
end

