-- ==== Sys2Proof/Laws/Command.lean ====
section
/-! SUPPORT. What a command can do, said once: `command_cases`, and `exec` as a `command` for every
instruction but RESET. -/

namespace Sys2Proof.Machine

/-- The `require` lines of a command. -/
def needsOf (i : Instr) : State → List Requirement :=
  match i with
  | .loadkt => needsLoadkt
  | .dechdr => needsDechdr Config.layout
  | .enc => needsCipher
  | .dec => needsCipher
  | .mkkey => needsMkkey
  | .derive => needsDerive
  | .extract => needsExtract
  | .classify => needsClassify
  | .ldblk idx => needsLdblk idx
  | .stblk idx => needsStblk idx
  | .ckload => needsCkload
  | .check => needsCheck
  | .dump => needsDump
  | .reset => fun _ => []

/-- The effect of a command whose requirements hold. -/
def effectOf (i : Instr) : State → State :=
  match i with
  | .loadkt => effectLoadkt
  | .dechdr => effectDechdr Config.layout
  | .enc => effectCipher .enc
  | .dec => effectCipher .dec
  | .mkkey => effectMkkey
  | .derive => effectDerive
  | .extract => effectExtract
  | .classify => effectClassify
  | .ldblk idx => effectLdblk idx
  | .stblk idx => effectStblk idx
  | .ckload => effectCkload
  | .check => effectCheck
  | .dump => effectDump
  | .reset => resetEngine

theorem exec_eq_command (i : Instr) (s : State) (h : i ≠ .reset) :
    exec i s = command i.opcode (needsOf i) (effectOf i) s := by
  cases i <;> first | rfl | exact absurd rfl h

@[simp] theorem exec_reset (s : State) : exec .reset s = .next (resetEngine s) := rfl

/-- The three things a command can do: nothing in mode `FAULTED`, the fault of its first failing
requirement, or its effect. -/
theorem command_cases {op : Byte} {needs : State → List Requirement} {effect : State → State} {s : State}
    {r : Result} (h : command op needs effect s = r) :
    (s.mode = .faulted ∧ r = .next s) ∨
    (s.mode = .idle ∧ ∃ q, firstFailure (needs s) = some q ∧ r = .next (raise q.kind q.info op s)) ∨
    (s.mode = .idle ∧ firstFailure (needs s) = none ∧ r = .next (effect s)) := by
  unfold command at h
  split at h
  · exact .inl ⟨‹_›, h.symm⟩
  · split at h
    · exact .inr (.inr ⟨‹_›, ‹_›, h.symm⟩)
    · exact .inr (.inl ⟨‹_›, _, ‹_›, h.symm⟩)

/-- What every command can do. -/
theorem exec_cases {i : Instr} {s t : State} (h : exec i s = .next t) :
    (i = .reset ∧ t = resetEngine s) ∨
    (i ≠ .reset ∧ s.mode = .faulted ∧ t = s) ∨
    (i ≠ .reset ∧ s.mode = .idle ∧ ∃ q, firstFailure (needsOf i s) = some q ∧
      t = raise q.kind q.info i.opcode s) ∨
    (i ≠ .reset ∧ s.mode = .idle ∧ firstFailure (needsOf i s) = none ∧ t = effectOf i s) := by
  by_cases hr : i = .reset
  · subst hr; exact .inl ⟨rfl, by simpa using h.symm⟩
  · rw [exec_eq_command i s hr] at h
    rcases command_cases h with ⟨hm, ht⟩ | ⟨hm, q, hq, ht⟩ | ⟨hm, hq, ht⟩
    · exact .inr (.inl ⟨hr, hm, by simpa using ht⟩)
    · exact .inr (.inr (.inl ⟨hr, hm, q, hq, by simpa using ht⟩))
    · exact .inr (.inr (.inr ⟨hr, hm, hq, by simpa using ht⟩))

theorem command_faulted {op : Byte} {needs : State → List Requirement} {effect : State → State} {s : State}
    (h : s.mode = .faulted) : command op needs effect s = .next s := by simp [command, h]

theorem command_succeeds {op : Byte} {needs : State → List Requirement} {effect : State → State} {s : State}
    (h : s.mode = .idle) (hq : firstFailure (needs s) = none) :
    command op needs effect s = .next (effect s) := by simp [command, h, hq]

theorem command_fails {op : Byte} {needs : State → List Requirement} {effect : State → State} {s : State}
    {q : Requirement} (h : s.mode = .idle) (hq : firstFailure (needs s) = some q) :
    command op needs effect s = .next (raise q.kind q.info op s) := by simp [command, h, hq]

/-- A command whose requirements hold has its effect. -/
theorem exec_succeeds {i : Instr} {s : State} (hr : i ≠ .reset) (h : s.mode = .idle)
    (hq : firstFailure (needsOf i s) = none) : exec i s = .next (effectOf i s) := by
  rw [exec_eq_command i s hr]; exact command_succeeds h hq

/-- A command with a failing requirement takes that fault. -/
theorem exec_fails {i : Instr} {s : State} {q : Requirement} (hr : i ≠ .reset) (h : s.mode = .idle)
    (hq : firstFailure (needsOf i s) = some q) :
    exec i s = .next (raise q.kind q.info i.opcode s) := by
  rw [exec_eq_command i s hr]; exact command_fails h hq

@[simp] theorem firstFailure_nil : firstFailure [] = none := rfl

@[simp] theorem firstFailure_cons (r : Requirement) (rest : List Requirement) :
    firstFailure (r :: rest) = if r.holds then firstFailure rest else some r := rfl

/-- A failing requirement is one of those listed. -/
theorem firstFailure_mem {rs : List Requirement} {q : Requirement} (h : firstFailure rs = some q) :
    q ∈ rs ∧ q.holds = false := by
  induction rs with
  | nil => cases h
  | cons r rest ih =>
    simp only [firstFailure_cons] at h
    split at h
    · exact ⟨List.mem_cons_of_mem _ (ih h).1, (ih h).2⟩
    · rename_i hf
      cases h
      exact ⟨List.mem_cons_self, Bool.eq_false_iff.mpr hf⟩

/-- `BC_CAP` lies in [256, 2^24] (R6, D18). -/
theorem bcCap_bounds : 256 ≤ Config.bcCap ∧ Config.bcCap ≤ 2 ^ 24 := by
  unfold Config.bcCap; omega

/-! ### Reading registers -/

@[simp] theorem Reg.read_holds {w : Nat} (v : BitVec w) (f : Block) : (Reg.holds v).read f = v := rfl

@[simp] theorem Reg.read_unwritten {w : Nat} (f : Block) : (Reg.unwritten : Reg w).read f = f.setWidth w := rfl

theorem loHalf_append (h l : Word) : loHalf (h ++ l) = l := by
  apply BitVec.eq_of_getLsbD_eq
  intro i hi
  simp only [loHalf, BitVec.getLsbD_extractLsb', BitVec.getLsbD_append]
  simp [hi]

theorem hiHalf_append (h l : Word) : hiHalf (h ++ l) = h := by
  apply BitVec.eq_of_getLsbD_eq
  intro i hi
  simp only [hiHalf, BitVec.getLsbD_extractLsb', BitVec.getLsbD_append]
  simp [hi]

theorem hiHalf_append_loHalf (b : Block) : hiHalf b ++ loHalf b = b := by
  apply BitVec.eq_of_getLsbD_eq
  intro i hi
  simp only [hiHalf, loHalf, BitVec.getLsbD_append, BitVec.getLsbD_extractLsb']
  by_cases h : i < 32
  · simp [h]
  · simp [h]
    have : 32 + (i - 32) = i := by omega
    rw [this]; simp; omega

/-- What is written to `BLK` is read back (R22). -/
theorem getBlk_setBlk (b : Block) (s : State) : getBlk (setBlk b s) = b := by
  simp [getBlk, getBlkHi, getBlkLo, hiHalf_append_loHalf]

end Sys2Proof.Machine
end

