-- ==== Sys2Proof/Laws/Cipher.lean ====
section
/-! SUPPORT. Which entries the cipher reads, and which entries DERIVE writes. -/

namespace Sys2Proof.Machine

/-- R131: the round function reads entries 18 to 1041 alone. -/
theorem roundF_congr {T U : Table} (z : Word) (h : ∀ i, 18 ≤ i → i < 1042 → T i = U i) :
    roundF T z = roundF U z := by
  have bound (k : Nat) : (z.extractLsb' k 8).toNat < 256 := (z.extractLsb' k 8).isLt
  unfold roundF
  rw [h (18 + _) (by omega) (by have := bound 24; omega),
    h (274 + _) (by omega) (by have := bound 16; omega),
    h (530 + _) (by omega) (by have := bound 8; omega),
    h (786 + _) (by omega) (by have := bound 0; omega)]

/-- Rounds that agree one by one agree in a row. -/
theorem cipherRounds_congr {rd rd' : Nat → Table} (order : List Nat) (n : Nat) (p : Word × Word)
    (h : ∀ r q, ∀ i ∈ order, cipherRound (rd r) i q = cipherRound (rd' r) i q) :
    cipherRounds rd order n p = cipherRounds rd' order n p := by
  induction order generalizing n p with
  | nil => rfl
  | cons i rest ih =>
    simp only [cipherRounds]
    rw [h n p i List.mem_cons_self]
    exact ih _ _ fun r q j hj => h r q j (List.mem_cons_of_mem _ hj)

/-- An entry that is written reads as itself, at every site of every access (R41). -/
theorem ktView_written {kt : Store 32} {i : Nat} {v : Word} (h : Store.lookup kt i = some v)
    (draw site : Nat) : ktView kt draw site i = v := by simp [ktView, h]

/-- Step 2 of DERIVE leaves entries 12 and beyond alone (R153). -/
theorem lookup_foldKeycode_beyond (kt : Store 32) (draw : Nat) (kc0 kc1 : Word) {k : Nat} (h : 12 ≤ k) :
    Store.lookup (foldKeycode kt draw kc0 kc1) k = Store.lookup kt k :=
  Store.lookup_fill_out _ _ (by omega)

/-- Step 3 of DERIVE leaves what lies beyond its last iteration alone (R153). -/
theorem lookup_refill_beyond (draw count i : Nat) (S : Block) (kt : Store 32) {k : Nat}
    (h : i + 2 * count ≤ k) : Store.lookup (refill draw count i S kt) k = Store.lookup kt k := by
  induction count generalizing i S kt with
  | zero => rfl
  | succ c ih =>
    simp only [refill]
    rw [ih _ _ _ (by omega), Store.lookup_put_other _ _ (by omega), Store.lookup_put_other _ _ (by omega)]

/-- Step 3 of DERIVE unwrites nothing, and writes every entry of its range (R153). -/
theorem isSome_lookup_refill (draw count i : Nat) (S : Block) (kt : Store 32) {k : Nat}
    (h : (Store.lookup kt k).isSome = true ∨ (i ≤ k ∧ k < i + 2 * count)) :
    (Store.lookup (refill draw count i S kt) k).isSome = true := by
  induction count generalizing i S kt with
  | zero => rcases h with h | h; exacts [h, by omega]
  | succ c ih =>
    simp only [refill]
    apply ih
    simp only [Store.lookup_put]
    by_cases h1 : k = i + 1
    · exact .inl (by simp [h1])
    · by_cases h2 : k = i
      · exact .inl (by simp [h2])
      · rcases h with h | h
        · exact .inl (by simp [h1, h2, h])
        · exact .inr (by omega)

/-- Step 3 of DERIVE keeps the canonical form of the table (R27). -/
theorem risingIn_refill (draw count i : Nat) (S : Block) (kt : Store 32) (hi : Nat)
    (hk : Store.risingIn 0 hi kt = true) (h : i + 2 * count ≤ hi) :
    Store.risingIn 0 hi (refill draw count i S kt) = true := by
  induction count generalizing i S kt with
  | zero => exact hk
  | succ c ih =>
    simp only [refill]
    exact ih _ _ _ (Store.risingIn_put _ _ _ _ _ (Store.risingIn_put _ _ _ _ _ hk (by omega) (by omega))
      (by omega) (by omega)) (by omega)

end Sys2Proof.Machine
end

