-- ==== Sys2Proof/Laws/Effects.lean ====
section
/-! SUPPORT. What each command writes and what it leaves alone: one frame lemma and one result lemma per
effect, for `simp`. -/

namespace Sys2Proof.Machine

/-- What LOADKT (R110) leaves alone. -/
@[simp] theorem effectLoadkt_frame (s : State) :
    (effectLoadkt s).blkLo = s.blkLo ∧ (effectLoadkt s).blkHi = s.blkHi ∧ (effectLoadkt s).kc0 = s.kc0 ∧
    (effectLoadkt s).kc1 = s.kc1 ∧ (effectLoadkt s).kc2 = s.kc2 ∧ (effectLoadkt s).bc = s.bc ∧
    (effectLoadkt s).bcLen = s.bcLen ∧ (effectLoadkt s).title0 = s.title0 ∧
    (effectLoadkt s).title1 = s.title1 ∧ (effectLoadkt s).title2 = s.title2 ∧
    (effectLoadkt s).gamecode = s.gamecode ∧ (effectLoadkt s).bootOff = s.bootOff ∧
    (effectLoadkt s).bootCnt = s.bootCnt ∧ (effectLoadkt s).ckEmb = s.ckEmb ∧
    (effectLoadkt s).ckOff = s.ckOff ∧ (effectLoadkt s).ckLen = s.ckLen ∧
    (effectLoadkt s).securePresent = s.securePresent ∧
    (effectLoadkt s).secureEncrypted = s.secureEncrypted ∧ (effectLoadkt s).crcMatch = s.crcMatch ∧
    (effectLoadkt s).crcCalc = s.crcCalc ∧ (effectLoadkt s).outLen = s.outLen ∧
    (effectLoadkt s).fault = s.fault ∧ (effectLoadkt s).mode = s.mode ∧ (effectLoadkt s).out = s.out ∧
    (effectLoadkt s).img = s.img ∧ (effectLoadkt s).key = s.key ∧ (effectLoadkt s).pending = s.pending ∧
    (effectLoadkt s).readData = s.readData ∧ (effectLoadkt s).draws = s.draws ∧
    (effectLoadkt s).imgUsed = s.imgUsed ∧ (effectLoadkt s).keyUsed = s.keyUsed := by
  simp only [effectLoadkt, and_self]

/-- What LOADKT (R110) writes. -/
@[simp] theorem effectLoadkt_result (s : State) :
    (effectLoadkt s).kt = (Store.fill s.kt 0 Config.ktEntries fun i => s.key.word (4 * i)) ∧
    (effectLoadkt s).valid = { s.valid with kt := true } := by
  simp only [effectLoadkt, and_self]

/-- What DECHDR (R120) leaves alone. -/
@[simp] theorem effectDechdr_frame (l : Layout) (s : State) :
    (effectDechdr l s).blkLo = s.blkLo ∧ (effectDechdr l s).blkHi = s.blkHi ∧
    (effectDechdr l s).kc0 = s.kc0 ∧ (effectDechdr l s).kc1 = s.kc1 ∧ (effectDechdr l s).kc2 = s.kc2 ∧
    (effectDechdr l s).kt = s.kt ∧ (effectDechdr l s).bc = s.bc ∧ (effectDechdr l s).bcLen = s.bcLen ∧
    (effectDechdr l s).ckEmb = s.ckEmb ∧ (effectDechdr l s).ckOff = s.ckOff ∧
    (effectDechdr l s).ckLen = s.ckLen ∧ (effectDechdr l s).securePresent = s.securePresent ∧
    (effectDechdr l s).secureEncrypted = s.secureEncrypted ∧ (effectDechdr l s).crcMatch = s.crcMatch ∧
    (effectDechdr l s).crcCalc = s.crcCalc ∧ (effectDechdr l s).outLen = s.outLen ∧
    (effectDechdr l s).fault = s.fault ∧ (effectDechdr l s).mode = s.mode ∧
    (effectDechdr l s).out = s.out ∧ (effectDechdr l s).img = s.img ∧ (effectDechdr l s).key = s.key ∧
    (effectDechdr l s).pending = s.pending ∧ (effectDechdr l s).readData = s.readData ∧
    (effectDechdr l s).draws = s.draws ∧ (effectDechdr l s).imgUsed = s.imgUsed ∧
    (effectDechdr l s).keyUsed = s.keyUsed := by
  simp only [effectDechdr, and_self]

/-- What DECHDR (R120) writes. -/
@[simp] theorem effectDechdr_result (l : Layout) (s : State) :
    (effectDechdr l s).title0 = Reg.holds (s.img.word l.offTitle) ∧
    (effectDechdr l s).title1 = Reg.holds (s.img.word (l.offTitle + 4)) ∧
    (effectDechdr l s).title2 = Reg.holds (s.img.word (l.offTitle + 8)) ∧
    (effectDechdr l s).gamecode = Reg.holds (s.img.word l.offGamecode) ∧
    (effectDechdr l s).bootOff = Reg.holds (s.img.word l.offBootOff) ∧
    (effectDechdr l s).bootCnt = Reg.holds (s.img.word l.offBootCnt) ∧
    (effectDechdr l s).valid = { s.valid with hdr := true } := by
  simp only [effectDechdr, and_self]

/-- What ENC and DEC (R133, R134) leaves alone. -/
@[simp] theorem effectCipher_frame (dir : Dir) (s : State) :
    (effectCipher dir s).kc0 = s.kc0 ∧ (effectCipher dir s).kc1 = s.kc1 ∧
    (effectCipher dir s).kc2 = s.kc2 ∧ (effectCipher dir s).kt = s.kt ∧ (effectCipher dir s).bc = s.bc ∧
    (effectCipher dir s).bcLen = s.bcLen ∧ (effectCipher dir s).title0 = s.title0 ∧
    (effectCipher dir s).title1 = s.title1 ∧ (effectCipher dir s).title2 = s.title2 ∧
    (effectCipher dir s).gamecode = s.gamecode ∧ (effectCipher dir s).bootOff = s.bootOff ∧
    (effectCipher dir s).bootCnt = s.bootCnt ∧ (effectCipher dir s).ckEmb = s.ckEmb ∧
    (effectCipher dir s).ckOff = s.ckOff ∧ (effectCipher dir s).ckLen = s.ckLen ∧
    (effectCipher dir s).securePresent = s.securePresent ∧
    (effectCipher dir s).secureEncrypted = s.secureEncrypted ∧ (effectCipher dir s).crcMatch = s.crcMatch ∧
    (effectCipher dir s).crcCalc = s.crcCalc ∧ (effectCipher dir s).outLen = s.outLen ∧
    (effectCipher dir s).valid = s.valid ∧ (effectCipher dir s).fault = s.fault ∧
    (effectCipher dir s).mode = s.mode ∧ (effectCipher dir s).out = s.out ∧
    (effectCipher dir s).img = s.img ∧ (effectCipher dir s).key = s.key ∧
    (effectCipher dir s).pending = s.pending ∧ (effectCipher dir s).readData = s.readData ∧
    (effectCipher dir s).draws = s.draws ∧ (effectCipher dir s).imgUsed = s.imgUsed ∧
    (effectCipher dir s).keyUsed = s.keyUsed := by
  simp only [effectCipher, setBlk, and_self]

/-- What ENC and DEC (R133, R134) writes. -/
@[simp] theorem effectCipher_result (dir : Dir) (s : State) :
    (effectCipher dir s).blkLo = Reg.holds (loHalf (cryptKt s.kt s.draws 0 (getBlk s) dir)) ∧
    (effectCipher dir s).blkHi = Reg.holds (hiHalf (cryptKt s.kt s.draws 0 (getBlk s) dir)) := by
  simp only [effectCipher, setBlk, and_self]

/-- What MKKEY (R150) leaves alone. -/
@[simp] theorem effectMkkey_frame (s : State) :
    (effectMkkey s).blkLo = s.blkLo ∧ (effectMkkey s).blkHi = s.blkHi ∧ (effectMkkey s).kt = s.kt ∧
    (effectMkkey s).bc = s.bc ∧ (effectMkkey s).bcLen = s.bcLen ∧ (effectMkkey s).title0 = s.title0 ∧
    (effectMkkey s).title1 = s.title1 ∧ (effectMkkey s).title2 = s.title2 ∧
    (effectMkkey s).gamecode = s.gamecode ∧ (effectMkkey s).bootOff = s.bootOff ∧
    (effectMkkey s).bootCnt = s.bootCnt ∧ (effectMkkey s).ckEmb = s.ckEmb ∧
    (effectMkkey s).ckOff = s.ckOff ∧ (effectMkkey s).ckLen = s.ckLen ∧
    (effectMkkey s).securePresent = s.securePresent ∧ (effectMkkey s).secureEncrypted = s.secureEncrypted ∧
    (effectMkkey s).crcMatch = s.crcMatch ∧ (effectMkkey s).crcCalc = s.crcCalc ∧
    (effectMkkey s).outLen = s.outLen ∧ (effectMkkey s).fault = s.fault ∧ (effectMkkey s).mode = s.mode ∧
    (effectMkkey s).out = s.out ∧ (effectMkkey s).img = s.img ∧ (effectMkkey s).key = s.key ∧
    (effectMkkey s).pending = s.pending ∧ (effectMkkey s).readData = s.readData ∧
    (effectMkkey s).draws = s.draws ∧ (effectMkkey s).imgUsed = s.imgUsed ∧
    (effectMkkey s).keyUsed = s.keyUsed := by
  simp only [effectMkkey, and_self]

/-- What MKKEY (R150) writes. -/
@[simp] theorem effectMkkey_result (s : State) :
    (effectMkkey s).kc0 = Reg.holds (getGamecode s) ∧
    (effectMkkey s).kc1 = Reg.holds (getGamecode s >>> 1) ∧
    (effectMkkey s).kc2 = Reg.holds (getGamecode s <<< 1) ∧
    (effectMkkey s).valid = { s.valid with kc := true } := by
  simp only [effectMkkey, and_self]

/-- What DERIVE (R153) leaves alone. -/
@[simp] theorem effectDerive_frame (s : State) :
    (effectDerive s).blkLo = s.blkLo ∧ (effectDerive s).blkHi = s.blkHi ∧ (effectDerive s).kc2 = s.kc2 ∧
    (effectDerive s).bc = s.bc ∧ (effectDerive s).bcLen = s.bcLen ∧ (effectDerive s).title0 = s.title0 ∧
    (effectDerive s).title1 = s.title1 ∧ (effectDerive s).title2 = s.title2 ∧
    (effectDerive s).gamecode = s.gamecode ∧ (effectDerive s).bootOff = s.bootOff ∧
    (effectDerive s).bootCnt = s.bootCnt ∧ (effectDerive s).ckEmb = s.ckEmb ∧
    (effectDerive s).ckOff = s.ckOff ∧ (effectDerive s).ckLen = s.ckLen ∧
    (effectDerive s).securePresent = s.securePresent ∧
    (effectDerive s).secureEncrypted = s.secureEncrypted ∧ (effectDerive s).crcMatch = s.crcMatch ∧
    (effectDerive s).crcCalc = s.crcCalc ∧ (effectDerive s).outLen = s.outLen ∧
    (effectDerive s).valid = s.valid ∧ (effectDerive s).fault = s.fault ∧ (effectDerive s).mode = s.mode ∧
    (effectDerive s).out = s.out ∧ (effectDerive s).img = s.img ∧ (effectDerive s).key = s.key ∧
    (effectDerive s).pending = s.pending ∧ (effectDerive s).readData = s.readData ∧
    (effectDerive s).draws = s.draws ∧ (effectDerive s).imgUsed = s.imgUsed ∧
    (effectDerive s).keyUsed = s.keyUsed := by
  simp only [effectDerive, and_self]

/-- What DERIVE (R153) writes. -/
@[simp] theorem effectDerive_result (s : State) :
    (effectDerive s).kc0 = Reg.holds (derivedKc0 s) ∧ (effectDerive s).kc1 = Reg.holds (derivedKc1 s) ∧
    (effectDerive s).kt = deriveTable s.kt s.draws (derivedKc0 s) (derivedKc1 s) := by
  simp only [effectDerive, and_self]

/-- What EXTRACT (R172) leaves alone. -/
@[simp] theorem effectExtract_frame (s : State) :
    (effectExtract s).blkLo = s.blkLo ∧ (effectExtract s).blkHi = s.blkHi ∧ (effectExtract s).kc0 = s.kc0 ∧
    (effectExtract s).kc1 = s.kc1 ∧ (effectExtract s).kc2 = s.kc2 ∧ (effectExtract s).kt = s.kt ∧
    (effectExtract s).title0 = s.title0 ∧ (effectExtract s).title1 = s.title1 ∧
    (effectExtract s).title2 = s.title2 ∧ (effectExtract s).gamecode = s.gamecode ∧
    (effectExtract s).bootOff = s.bootOff ∧ (effectExtract s).bootCnt = s.bootCnt ∧
    (effectExtract s).ckEmb = s.ckEmb ∧ (effectExtract s).ckOff = s.ckOff ∧
    (effectExtract s).ckLen = s.ckLen ∧ (effectExtract s).crcMatch = s.crcMatch ∧
    (effectExtract s).crcCalc = s.crcCalc ∧ (effectExtract s).outLen = s.outLen ∧
    (effectExtract s).fault = s.fault ∧ (effectExtract s).mode = s.mode ∧ (effectExtract s).out = s.out ∧
    (effectExtract s).img = s.img ∧ (effectExtract s).key = s.key ∧ (effectExtract s).pending = s.pending ∧
    (effectExtract s).readData = s.readData ∧ (effectExtract s).draws = s.draws ∧
    (effectExtract s).imgUsed = s.imgUsed ∧ (effectExtract s).keyUsed = s.keyUsed := by
  simp only [effectExtract, and_self]

/-- What EXTRACT (R172) writes. -/
@[simp] theorem effectExtract_result (s : State) :
    (effectExtract s).bc = Store.fill s.bc 0 (getBootCnt s).toNat (imgBootWord s) ∧
    (effectExtract s).bcLen = getBootCnt s ∧
    (effectExtract s).securePresent = secureAreaPresent (getBootOff s) ∧
    (effectExtract s).secureEncrypted = secureAreaEncrypted (imgBootWord s 0) ∧
    (effectExtract s).valid = { s.valid with bc := true, cls := true } := by
  simp only [effectExtract, and_self]

/-- What CLASSIFY (R175) leaves alone. -/
@[simp] theorem effectClassify_frame (s : State) :
    (effectClassify s).blkLo = s.blkLo ∧ (effectClassify s).blkHi = s.blkHi ∧
    (effectClassify s).kc0 = s.kc0 ∧ (effectClassify s).kc1 = s.kc1 ∧ (effectClassify s).kc2 = s.kc2 ∧
    (effectClassify s).kt = s.kt ∧ (effectClassify s).bc = s.bc ∧ (effectClassify s).bcLen = s.bcLen ∧
    (effectClassify s).title0 = s.title0 ∧ (effectClassify s).title1 = s.title1 ∧
    (effectClassify s).title2 = s.title2 ∧ (effectClassify s).gamecode = s.gamecode ∧
    (effectClassify s).bootOff = s.bootOff ∧ (effectClassify s).bootCnt = s.bootCnt ∧
    (effectClassify s).ckEmb = s.ckEmb ∧ (effectClassify s).ckOff = s.ckOff ∧
    (effectClassify s).ckLen = s.ckLen ∧ (effectClassify s).crcMatch = s.crcMatch ∧
    (effectClassify s).crcCalc = s.crcCalc ∧ (effectClassify s).outLen = s.outLen ∧
    (effectClassify s).fault = s.fault ∧ (effectClassify s).mode = s.mode ∧
    (effectClassify s).out = s.out ∧ (effectClassify s).img = s.img ∧ (effectClassify s).key = s.key ∧
    (effectClassify s).pending = s.pending ∧ (effectClassify s).readData = s.readData ∧
    (effectClassify s).draws = s.draws ∧ (effectClassify s).imgUsed = s.imgUsed ∧
    (effectClassify s).keyUsed = s.keyUsed := by
  simp only [effectClassify, and_self]

/-- What CLASSIFY (R175) writes. -/
@[simp] theorem effectClassify_result (s : State) :
    (effectClassify s).securePresent = secureAreaPresent (getBootOff s) ∧
    (effectClassify s).secureEncrypted = secureAreaEncrypted (getBc s 0) ∧
    (effectClassify s).valid = { s.valid with cls := true } := by
  simp only [effectClassify, and_self]

/-- What LDBLK (R176) leaves alone. -/
@[simp] theorem effectLdblk_frame (idx : Nat) (s : State) :
    (effectLdblk idx s).kc0 = s.kc0 ∧ (effectLdblk idx s).kc1 = s.kc1 ∧ (effectLdblk idx s).kc2 = s.kc2 ∧
    (effectLdblk idx s).kt = s.kt ∧ (effectLdblk idx s).bc = s.bc ∧ (effectLdblk idx s).bcLen = s.bcLen ∧
    (effectLdblk idx s).title0 = s.title0 ∧ (effectLdblk idx s).title1 = s.title1 ∧
    (effectLdblk idx s).title2 = s.title2 ∧ (effectLdblk idx s).gamecode = s.gamecode ∧
    (effectLdblk idx s).bootOff = s.bootOff ∧ (effectLdblk idx s).bootCnt = s.bootCnt ∧
    (effectLdblk idx s).ckEmb = s.ckEmb ∧ (effectLdblk idx s).ckOff = s.ckOff ∧
    (effectLdblk idx s).ckLen = s.ckLen ∧ (effectLdblk idx s).securePresent = s.securePresent ∧
    (effectLdblk idx s).secureEncrypted = s.secureEncrypted ∧ (effectLdblk idx s).crcMatch = s.crcMatch ∧
    (effectLdblk idx s).crcCalc = s.crcCalc ∧ (effectLdblk idx s).outLen = s.outLen ∧
    (effectLdblk idx s).fault = s.fault ∧ (effectLdblk idx s).mode = s.mode ∧
    (effectLdblk idx s).out = s.out ∧ (effectLdblk idx s).img = s.img ∧ (effectLdblk idx s).key = s.key ∧
    (effectLdblk idx s).pending = s.pending ∧ (effectLdblk idx s).readData = s.readData ∧
    (effectLdblk idx s).draws = s.draws ∧ (effectLdblk idx s).imgUsed = s.imgUsed ∧
    (effectLdblk idx s).keyUsed = s.keyUsed := by
  simp only [effectLdblk, setBlk, and_self]

/-- What LDBLK (R176) writes. -/
@[simp] theorem effectLdblk_result (idx : Nat) (s : State) :
    (effectLdblk idx s).blkLo = Reg.holds (loHalf (getBc s idx)) ∧
    (effectLdblk idx s).blkHi = Reg.holds (hiHalf (getBc s idx)) ∧
    (effectLdblk idx s).valid = { s.valid with blk := true } := by
  simp only [effectLdblk, setBlk, and_self]

/-- What STBLK (R177) leaves alone. -/
@[simp] theorem effectStblk_frame (idx : Nat) (s : State) :
    (effectStblk idx s).blkLo = s.blkLo ∧ (effectStblk idx s).blkHi = s.blkHi ∧
    (effectStblk idx s).kc0 = s.kc0 ∧ (effectStblk idx s).kc1 = s.kc1 ∧ (effectStblk idx s).kc2 = s.kc2 ∧
    (effectStblk idx s).kt = s.kt ∧ (effectStblk idx s).bcLen = s.bcLen ∧
    (effectStblk idx s).title0 = s.title0 ∧ (effectStblk idx s).title1 = s.title1 ∧
    (effectStblk idx s).title2 = s.title2 ∧ (effectStblk idx s).gamecode = s.gamecode ∧
    (effectStblk idx s).bootOff = s.bootOff ∧ (effectStblk idx s).bootCnt = s.bootCnt ∧
    (effectStblk idx s).ckEmb = s.ckEmb ∧ (effectStblk idx s).ckOff = s.ckOff ∧
    (effectStblk idx s).ckLen = s.ckLen ∧ (effectStblk idx s).securePresent = s.securePresent ∧
    (effectStblk idx s).secureEncrypted = s.secureEncrypted ∧ (effectStblk idx s).crcMatch = s.crcMatch ∧
    (effectStblk idx s).crcCalc = s.crcCalc ∧ (effectStblk idx s).outLen = s.outLen ∧
    (effectStblk idx s).valid = s.valid ∧ (effectStblk idx s).fault = s.fault ∧
    (effectStblk idx s).mode = s.mode ∧ (effectStblk idx s).out = s.out ∧ (effectStblk idx s).img = s.img ∧
    (effectStblk idx s).key = s.key ∧ (effectStblk idx s).pending = s.pending ∧
    (effectStblk idx s).readData = s.readData ∧ (effectStblk idx s).draws = s.draws ∧
    (effectStblk idx s).imgUsed = s.imgUsed ∧ (effectStblk idx s).keyUsed = s.keyUsed := by
  simp only [effectStblk, and_self]

/-- What STBLK (R177) writes. -/
@[simp] theorem effectStblk_result (idx : Nat) (s : State) :
    (effectStblk idx s).bc = Store.put s.bc idx (getBlk s) := by
  simp only [effectStblk]

/-- What CKLOAD (R200) leaves alone. -/
@[simp] theorem effectCkload_frame (s : State) :
    (effectCkload s).blkLo = s.blkLo ∧ (effectCkload s).blkHi = s.blkHi ∧ (effectCkload s).kc0 = s.kc0 ∧
    (effectCkload s).kc1 = s.kc1 ∧ (effectCkload s).kc2 = s.kc2 ∧ (effectCkload s).kt = s.kt ∧
    (effectCkload s).bc = s.bc ∧ (effectCkload s).bcLen = s.bcLen ∧ (effectCkload s).title0 = s.title0 ∧
    (effectCkload s).title1 = s.title1 ∧ (effectCkload s).title2 = s.title2 ∧
    (effectCkload s).gamecode = s.gamecode ∧ (effectCkload s).bootOff = s.bootOff ∧
    (effectCkload s).bootCnt = s.bootCnt ∧ (effectCkload s).securePresent = s.securePresent ∧
    (effectCkload s).secureEncrypted = s.secureEncrypted ∧ (effectCkload s).crcMatch = s.crcMatch ∧
    (effectCkload s).crcCalc = s.crcCalc ∧ (effectCkload s).outLen = s.outLen ∧
    (effectCkload s).fault = s.fault ∧ (effectCkload s).mode = s.mode ∧ (effectCkload s).out = s.out ∧
    (effectCkload s).img = s.img ∧ (effectCkload s).key = s.key ∧ (effectCkload s).pending = s.pending ∧
    (effectCkload s).readData = s.readData ∧ (effectCkload s).draws = s.draws ∧
    (effectCkload s).imgUsed = s.imgUsed ∧ (effectCkload s).keyUsed = s.keyUsed := by
  simp only [effectCkload, and_self]

/-- What CKLOAD (R200) writes. -/
@[simp] theorem effectCkload_result (s : State) :
    (effectCkload s).ckEmb = Reg.holds (le16 (bcByte s Config.ckEmbPos) (bcByte s (Config.ckEmbPos + 1))) ∧
    (effectCkload s).ckOff = Config.ckStart ∧ (effectCkload s).ckLen = Config.ckSlice ∧
    (effectCkload s).valid = { s.valid with ckin := true } := by
  simp only [effectCkload, and_self]

/-- What CHECK (R202) leaves alone. -/
@[simp] theorem effectCheck_frame (s : State) :
    (effectCheck s).blkLo = s.blkLo ∧ (effectCheck s).blkHi = s.blkHi ∧ (effectCheck s).kc0 = s.kc0 ∧
    (effectCheck s).kc1 = s.kc1 ∧ (effectCheck s).kc2 = s.kc2 ∧ (effectCheck s).kt = s.kt ∧
    (effectCheck s).bc = s.bc ∧ (effectCheck s).bcLen = s.bcLen ∧ (effectCheck s).title0 = s.title0 ∧
    (effectCheck s).title1 = s.title1 ∧ (effectCheck s).title2 = s.title2 ∧
    (effectCheck s).gamecode = s.gamecode ∧ (effectCheck s).bootOff = s.bootOff ∧
    (effectCheck s).bootCnt = s.bootCnt ∧ (effectCheck s).ckEmb = s.ckEmb ∧
    (effectCheck s).ckOff = s.ckOff ∧ (effectCheck s).ckLen = s.ckLen ∧
    (effectCheck s).securePresent = s.securePresent ∧ (effectCheck s).secureEncrypted = s.secureEncrypted ∧
    (effectCheck s).outLen = s.outLen ∧ (effectCheck s).fault = s.fault ∧ (effectCheck s).mode = s.mode ∧
    (effectCheck s).out = s.out ∧ (effectCheck s).img = s.img ∧ (effectCheck s).key = s.key ∧
    (effectCheck s).pending = s.pending ∧ (effectCheck s).readData = s.readData ∧
    (effectCheck s).draws = s.draws ∧ (effectCheck s).imgUsed = s.imgUsed ∧
    (effectCheck s).keyUsed = s.keyUsed := by
  simp only [effectCheck, and_self]

/-- What CHECK (R202) writes. -/
@[simp] theorem effectCheck_result (s : State) :
    (effectCheck s).crcCalc = sliceChecksum s ∧
    (effectCheck s).crcMatch = checksumMatches (sliceChecksum s) (getCkEmb s) ∧
    (effectCheck s).valid = { s.valid with ckres := true } := by
  simp only [effectCheck, and_self]

/-- What DUMP (R178) leaves alone. -/
@[simp] theorem effectDump_frame (s : State) :
    (effectDump s).blkLo = s.blkLo ∧ (effectDump s).blkHi = s.blkHi ∧ (effectDump s).kc0 = s.kc0 ∧
    (effectDump s).kc1 = s.kc1 ∧ (effectDump s).kc2 = s.kc2 ∧ (effectDump s).kt = s.kt ∧
    (effectDump s).bc = s.bc ∧ (effectDump s).bcLen = s.bcLen ∧ (effectDump s).title0 = s.title0 ∧
    (effectDump s).title1 = s.title1 ∧ (effectDump s).title2 = s.title2 ∧
    (effectDump s).gamecode = s.gamecode ∧ (effectDump s).bootOff = s.bootOff ∧
    (effectDump s).bootCnt = s.bootCnt ∧ (effectDump s).ckEmb = s.ckEmb ∧ (effectDump s).ckOff = s.ckOff ∧
    (effectDump s).ckLen = s.ckLen ∧ (effectDump s).securePresent = s.securePresent ∧
    (effectDump s).secureEncrypted = s.secureEncrypted ∧ (effectDump s).crcMatch = s.crcMatch ∧
    (effectDump s).crcCalc = s.crcCalc ∧ (effectDump s).valid = s.valid ∧ (effectDump s).fault = s.fault ∧
    (effectDump s).mode = s.mode ∧ (effectDump s).img = s.img ∧ (effectDump s).key = s.key ∧
    (effectDump s).pending = s.pending ∧ (effectDump s).readData = s.readData ∧
    (effectDump s).draws = s.draws ∧ (effectDump s).imgUsed = s.imgUsed ∧
    (effectDump s).keyUsed = s.keyUsed := by
  simp only [effectDump, and_self]

/-- What DUMP (R178) writes. -/
@[simp] theorem effectDump_result (s : State) :
    (effectDump s).out = Store.fill s.out 0 (8 * s.bcLen.toNat) (bcByte s) ∧
    (effectDump s).outLen = BitVec.ofNat 32 (8 * s.bcLen.toNat) := by
  simp only [effectDump, and_self]

end Sys2Proof.Machine
end

