-- ==== Sys2Proof/Laws/Operands.lean ====
section
/-! SUPPORT. The numbers that the operand forms stand for: little-endian assembly, and the bytes of a block. -/

namespace Sys2Proof.Machine

/-- A byte appended below a value (R8). -/
theorem toNat_append_byte {n : Nat} (x : BitVec n) (a : Byte) :
    (x ++ a).toNat = x.toNat * 256 + a.toNat := by
  have h := Nat.shiftLeft_add_eq_or_of_lt (b := a.toNat) (i := 8) a.isLt x.toNat
  rw [BitVec.toNat_append, ← h, Nat.shiftLeft_eq]

/-- R12: the number `le16` assembles. -/
theorem le16_toNat (a b : Byte) : (le16 a b).toNat = leNumber [a, b] := by
  simp only [le16, leNumber, toNat_append_byte]; omega

theorem memRead_four (sp : Space) (a : Nat) :
    memRead sp a 4 = [sp.byte a, sp.byte (a + 1), sp.byte (a + 2), sp.byte (a + 3)] := by
  simp [memRead, List.range_succ]

theorem memRead_eight (sp : Space) (a : Nat) :
    memRead sp a 8 = [sp.byte a, sp.byte (a + 1), sp.byte (a + 2), sp.byte (a + 3), sp.byte (a + 4),
      sp.byte (a + 5), sp.byte (a + 6), sp.byte (a + 7)] := by
  simp [memRead, List.range_succ]

/-- R62: the number a little-endian `u32` of an input space stands for. -/
theorem Space.word_toNat (sp : Space) (a : Nat) : (sp.word a).toNat = leNumber (memRead sp a 4) := by
  rw [memRead_four]
  simp only [Space.word, le32, leNumber, toNat_append_byte]
  omega

/-- R62: the number a little-endian `u64` of an input space stands for. -/
theorem Space.block_toNat (sp : Space) (a : Nat) : (sp.block a).toNat = leNumber (memRead sp a 8) := by
  rw [memRead_eight]
  simp only [Space.block, le64, leNumber, toNat_append_byte]
  omega

/-- R12, R63: byte `j` of a block. -/
theorem blockByte_toNat (b : Block) (j : Nat) : (blockByte b j).toNat = b.toNat / 2 ^ (8 * j) % 256 := by
  simp [blockByte, BitVec.extractLsb'_toNat, Nat.shiftRight_eq_div_pow]

end Sys2Proof.Machine
end

