-- ==== Sys2Proof/Laws/PerInstr.lean ====
section
/-! SUPPORT. A law stated per instruction: the low byte of a command's word is its opcode. -/

namespace Sys2Proof.Laws.EncodeOpcode

/-- R90: bits 7:0 of the word of a command are its opcode, whatever its operand. -/
def Statement (i : Instr) : Prop := opField (encode i) = i.opcode

theorem loadkt : Statement .loadkt := by unfold Statement; decide
theorem dechdr : Statement .dechdr := by unfold Statement; decide
theorem enc : Statement .enc := by unfold Statement; decide
theorem dec : Statement .dec := by unfold Statement; decide
theorem mkkey : Statement .mkkey := by unfold Statement; decide
theorem derive : Statement .derive := by unfold Statement; decide
theorem extract : Statement .extract := by unfold Statement; decide
theorem classify : Statement .classify := by unfold Statement; decide

theorem ldblk (idx : Nat) : Statement (.ldblk idx) :=
  BitVec.extractLsb'_append_eq_right

theorem stblk (idx : Nat) : Statement (.stblk idx) :=
  BitVec.extractLsb'_append_eq_right

theorem ckload : Statement .ckload := by unfold Statement; decide
theorem check : Statement .check := by unfold Statement; decide
theorem dump : Statement .dump := by unfold Statement; decide
theorem reset : Statement .reset := by unfold Statement; decide

end Sys2Proof.Laws.EncodeOpcode
end

