-- ==== Sys2Proof/Laws/Step.lean ====
section
/-! SUPPORT. What a step can do, said once: `step_cases`; the register map; what a register write leaves
alone; and the marks on used inputs. -/

namespace Sys2Proof.Machine

/-- The map of R33 gives `CMD` at offset 0 alone. -/
theorem mappedReg_cmd {o : Nat} (h : mappedReg o = some .cmd) : o = 0 := by
  unfold mappedReg at h
  split at h <;> first | rfl | (split at h <;> simp at h) | simp at h

/-- The key-table window of R33 holds entries 0 to 1041. -/
theorem mappedReg_kt {o i : Nat} (h : mappedReg o = some (.kt i)) :
    i < Config.ktEntries ∧ i = (o - 0x1000) / 4 ∧ 0x1000 ≤ o := by
  unfold mappedReg at h
  split at h <;> first
    | (split at h
       · rename_i hc
         simp only [Option.some.injEq, HostReg.kt.injEq] at h
         unfold Config.ktEntries at *
         omega
       · simp at h)
    | simp at h

/-- The offsets R33 maps lie in the control block or in the key-table window. -/
theorem mappedReg_range {o : Nat} {r : HostReg} (h : mappedReg o = some r) :
    o ≤ 0x050 ∨ (0x1000 ≤ o ∧ o < 0x1000 + 4 * Config.ktEntries) := by
  unfold mappedReg at h
  split at h <;> first
    | exact .inl (by decide)
    | (split at h
       · exact .inr ‹_›
       · cases h)

theorem resolveAccess_ok {width offset : Nat} {r : HostReg} :
    resolveAccess width offset = .ok r ↔ width = 32 ∧ offset % 4 = 0 ∧ mappedReg offset = some r := by
  unfold resolveAccess
  split
  · simp_all
  · split
    · simp_all
    · cases mappedReg offset <;> simp_all

/-- What a register write leaves alone (R67, R218): everything but the data registers, the table and `VALID`. -/
@[simp] theorem hostWrite_frame (r : HostReg) (v : Word) (s : State) :
    (hostWrite r v s).securePresent = s.securePresent ∧
    (hostWrite r v s).secureEncrypted = s.secureEncrypted ∧ (hostWrite r v s).crcMatch = s.crcMatch ∧
    (hostWrite r v s).crcCalc = s.crcCalc ∧ (hostWrite r v s).outLen = s.outLen ∧
    (hostWrite r v s).bc = s.bc ∧ (hostWrite r v s).fault = s.fault ∧ (hostWrite r v s).mode = s.mode ∧
    (hostWrite r v s).out = s.out ∧ (hostWrite r v s).img = s.img ∧ (hostWrite r v s).key = s.key ∧
    (hostWrite r v s).pending = s.pending ∧ (hostWrite r v s).readData = s.readData ∧
    (hostWrite r v s).draws = s.draws ∧ (hostWrite r v s).imgUsed = s.imgUsed ∧
    (hostWrite r v s).keyUsed = s.keyUsed := by
  unfold hostWrite
  split
  · cases r
    case bcLen => simp only [writeReg]; split <;> simp
    all_goals simp [writeReg]
  · simp

/-- An illegal word writes the record and the mode at most (R94, R236). -/
theorem illegalCommand_cases {w : Word} {s t : State} (h : illegalCommand w s = .next t) :
    (s.mode = .faulted ∧ t = s) ∨ (s.mode = .idle ∧ t = raise .precondition 1#8 (opField w) s) := by
  unfold illegalCommand at h
  split at h
  · exact .inl ⟨‹_›, by simpa using h.symm⟩
  · exact .inr ⟨‹_›, by simpa using h.symm⟩

/-- No command but RESET moves the marks on used inputs: the step sets them before it (`noteInputs`). -/
theorem exec_marks {i : Instr} {s t : State} (h : exec i s = .next t) (hr : i ≠ .reset) :
    t.imgUsed = s.imgUsed ∧ t.keyUsed = s.keyUsed := by
  rcases exec_cases h with ⟨rfl, -⟩ | ⟨-, -, rfl⟩ | ⟨-, -, q, -, rfl⟩ | ⟨-, -, -, rfl⟩
  · exact absurd rfl hr
  · exact ⟨rfl, rfl⟩
  · simp
  · cases i <;> simp [effectOf] at hr ⊢

/-- Everything a step that answers a next state can have done. -/
theorem step_cases {s t : State} (h : step s = .next t) :
    (s.pending = [] ∧ t = s) ∨ ∃ a rest, s.pending = a :: rest ∧
      ((∃ w i, a = .write 32 0 w ∧ decodeWord w = .ok i ∧
          exec i (noteInputs i (accept rest s)) = .next t) ∨
        (∃ w e, a = .write 32 0 w ∧ decodeWord w = .error e ∧
          illegalCommand w (accept rest s) = .next t) ∨
        (∃ o r v, a = .write 32 o v ∧ o % 4 = 0 ∧ mappedReg o = some r ∧ r ≠ .cmd ∧
          t = hostWrite r v (accept rest s)) ∨
        (∃ o r, a = .read 32 o ∧ o % 4 = 0 ∧ mappedReg o = some r ∧
          t = returnRead (readReg r (accept rest s)) (accept rest s)) ∨
        (∃ o, a = .readOut o ∧
          t = returnRead ((outByte (accept rest s) o).setWidth 32) (accept rest s)) ∨
        (a = .hardwareReset ∧ t = resetEngine (accept rest s)) ∨
        (∃ bytes, a = .supplyImg bytes ∧
          supplyAllowed s.imgUsed s.img (Space.ofBytes bytes) (accept rest s) = true ∧
          t = supplyImage bytes (accept rest s)) ∨
        (∃ bytes, a = .supplyKey bytes ∧
          supplyAllowed s.keyUsed s.key (Space.ofBytes bytes) (accept rest s) = true ∧
          t = supplyBlob bytes (accept rest s))) := by
  unfold step at h
  cases hp : s.pending with
  | nil => rw [hp] at h; exact .inl ⟨rfl, by simpa using h.symm⟩
  | cons a rest =>
    rw [hp] at h
    refine .inr ⟨a, rest, rfl, ?_⟩
    cases a with
    | read width o =>
      simp only [serve] at h
      cases hr : resolveAccess width o with
      | error e => simp [hr] at h
      | ok r =>
        obtain ⟨rfl, ho, hm⟩ := resolveAccess_ok.mp hr
        simp only [hr, Host.Outcome.next.injEq] at h
        exact .inr (.inr (.inr (.inl ⟨o, r, rfl, ho, hm, h.symm⟩)))
    | write width o v =>
      simp only [serve] at h
      cases hr : resolveAccess width o with
      | error e => simp [hr] at h
      | ok r =>
        obtain ⟨rfl, ho, hm⟩ := resolveAccess_ok.mp hr
        by_cases hc : r = .cmd
        · subst hc
          obtain rfl := mappedReg_cmd hm
          simp only [hr, runCommand] at h
          cases hd : decodeWord v with
          | ok i => rw [hd] at h; exact .inl ⟨v, i, rfl, hd, h⟩
          | error e => rw [hd] at h; exact .inr (.inl ⟨v, e, rfl, hd, h⟩)
        · refine .inr (.inr (.inl ⟨o, r, v, rfl, ho, hm, hc, ?_⟩))
          cases r <;> first | exact absurd rfl hc | simpa [hr] using h.symm
    | readOut o =>
      simp only [serve, Host.Outcome.next.injEq] at h
      exact .inr (.inr (.inr (.inr (.inl ⟨o, rfl, h.symm⟩))))
    | hardwareReset =>
      simp only [serve, Host.Outcome.next.injEq] at h
      exact .inr (.inr (.inr (.inr (.inr (.inl ⟨rfl, h.symm⟩)))))
    | supplyImg bytes =>
      simp only [serve] at h
      by_cases hu : supplyAllowed (accept rest s).imgUsed (accept rest s).img (Space.ofBytes bytes)
          (accept rest s) = true
      · rw [if_pos hu] at h
        simp only [Host.Outcome.next.injEq] at h
        exact .inr (.inr (.inr (.inr (.inr (.inr (.inl ⟨bytes, rfl, hu, h.symm⟩))))))
      · rw [if_neg hu] at h; cases h
    | supplyKey bytes =>
      simp only [serve] at h
      by_cases hu : supplyAllowed (accept rest s).keyUsed (accept rest s).key (Space.ofBytes bytes)
          (accept rest s) = true
      · rw [if_pos hu] at h
        simp only [Host.Outcome.next.injEq] at h
        exact .inr (.inr (.inr (.inr (.inr (.inr (.inr ⟨bytes, rfl, hu, h.symm⟩))))))
      · rw [if_neg hu] at h; cases h

end Sys2Proof.Machine
end

