-- ==== Sys2Proof/Laws/Supply.lean ====
section
/-! SUPPORT. When a run is over (R78), and when a supply of an input is allowed (R77), said once. -/

namespace Sys2Proof.Machine

/-- What the host does before the next reset, the action `a` being next. -/
theorem hostIsDone_cons (a : HostAction) (rest : List HostAction) :
    hostIsDone (a :: rest) ↔ resets a = true ∨ (accessesEngine a = false ∧ hostIsDone rest) := by
  cases h : resets a
  · cases a <;> simp_all [hostIsDone, accessesEngine]
  · simp [hostIsDone, h]

theorem hostIsDone_nil : hostIsDone [] := by simp [hostIsDone]

/-- The run has ended (R78): the mode is `FAULTED`, or the host is done. -/
theorem runEnded_iff (m : Mode) (coming : List HostAction) :
    runEnded m coming = true ↔ m = .faulted ∨ hostIsDone coming := by
  cases m
  · induction coming with
    | nil => simp [runEnded, hostIsDone_nil]
    | cons a rest ih =>
      simp only [reduceCtorEq, false_or] at ih
      rw [hostIsDone_cons, ← ih]
      cases h : resets a <;> simp [runEnded, h]
  · simp [runEnded]

/-- When a supply is served: before the input's first use in the run, after the run, or without a change. -/
theorem supplyAllowed_iff (used : Bool) (old new : Space) (s : State) :
    supplyAllowed used old new s = true ↔
      used = false ∨ s.mode = .faulted ∨ hostIsDone s.pending ∨ new = old := by
  simp [supplyAllowed, runEnded_iff, or_assoc]

end Sys2Proof.Machine
end

