-- ==== Sys2Proof/Tests/Slice0.lean ====
section
/-! SUPPORT. Tests of single steps against the vectors of the spec (95_test_vectors.md, named V<n>, and the
worked examples of the rules), and a witness for every statement that has hypotheses. -/

open Sys2Proof Sys2Proof.Machine

/-- The result is a next state with the property `p`. -/
def testNext (r : Result) (p : State → Bool) : Bool :=
  match r with
  | .next t => p t
  | _ => false

/-- The number the host reads at a register. -/
def testRead (r : HostReg) (s : State) : Nat := (readReg r s).toNat

/-- The step that a write of `w` to `CMD` makes. -/
def testCmd (s : State) (w : Nat) : Result := step (s.withFetchWord 32 w)

/-- `FAULT` after a write of `w` to `CMD`. -/
def testFault (s : State) (w fault : Nat) : Bool :=
  testNext (testCmd s w) fun t => testRead .fault t == fault && testRead .status t % 2 == 1

/-- `T_IDX` (2.0 of the vectors). -/
def testIdx : Table := fun i => BitVec.ofNat 32 i

/-- `T_MIX` (2.0 of the vectors). -/
def testMix : Table := fun i => BitVec.ofNat 32 (0x9E3779B9 * (i + 1))

/-- The entries of `T_IDX` that the encryption and the decryption of 0 read (V12, V15). -/
def testSparseIdx : Store 32 :=
  (List.range 19 ++ [274] ++ List.range' 530 8 ++ List.range' 786 256).map fun i => (i, testIdx i)

/-- An input space of zeros. -/
def testSpace (n : Nat) : Space := { len := n, cells := [] }

/-- A space whose listed cells are given. -/
def testCells (n : Nat) (cells : Memory) : Space := { len := n, cells := cells }

/-- A state in which every item is valid and every register holds a value; two boot-code words. -/
def testLoaded : State :=
  { State.reset with
    blkLo := Reg.holds 0x89ABCDEF#32
    blkHi := Reg.holds 0x01234567#32
    kc0 := Reg.holds 0x12345678#32
    kc1 := Reg.holds 0x091A2B3C#32
    kc2 := Reg.holds 0x2468ACF0#32
    gamecode := Reg.holds 0x12345678#32
    bootOff := Reg.holds 0x4000#32
    bootCnt := Reg.holds 1#32
    ckEmb := Reg.holds 0x1234#16
    bc := [(0, 0x342D261F18110A03#64), (1, 0x4ADD5E575049423B#64)]
    bcLen := 2#32
    valid := { kt := true, hdr := true, kc := true, bc := true, blk := true, cls := true, ckin := true, ckres := true }
    img := testSpace 0x4008
    key := testSpace 4168 }

/-- `testLoaded` after a fault. -/
def testFaulted : State := raise .precondition 2#8 3#8 testLoaded

/-! ### Well-formedness (R91): each check refuses a term that breaks it -/

theorem test_illformed_ldblk : ¬(Instr.ldblk (2 ^ 24)).WellFormed := by decide
theorem test_illformed_stblk : ¬(Instr.stblk (2 ^ 24)).WellFormed := by decide
theorem test_wellformed_ldblk : (Instr.ldblk (2 ^ 24 - 1)).WellFormed := by decide
theorem test_wellformed_stblk : (Instr.stblk 0).WellFormed := by decide

/-! ### Decoding: words written out from 30_encoding.md (R90, R93), one per command -/

theorem test_decode_loadkt : decodeWord 0b00000000_00000000_00000000_00000001#32 = .ok .loadkt := by decide
theorem test_decode_dechdr : decodeWord 0b00000000_00000000_00000000_00000010#32 = .ok .dechdr := by decide
theorem test_decode_enc : decodeWord 0b00000000_00000000_00000000_00000011#32 = .ok .enc := by decide
theorem test_decode_dec : decodeWord 0b00000000_00000000_00000000_00000100#32 = .ok .dec := by decide
theorem test_decode_mkkey : decodeWord 0b00000000_00000000_00000000_00000101#32 = .ok .mkkey := by decide
theorem test_decode_derive : decodeWord 0b00000000_00000000_00000000_00000110#32 = .ok .derive := by decide
theorem test_decode_extract : decodeWord 0b00000000_00000000_00000000_00000111#32 = .ok .extract := by decide
theorem test_decode_classify : decodeWord 0b00000000_00000000_00000000_00001000#32 = .ok .classify := by decide
theorem test_decode_ldblk : decodeWord 0b00000000_00000000_11111111_00001001#32 = .ok (.ldblk 255) := by decide
theorem test_decode_stblk : decodeWord 0b10000000_00000000_00000001_00001010#32 = .ok (.stblk 0x800001) := by
  decide
theorem test_decode_ckload : decodeWord 0b00000000_00000000_00000000_00001011#32 = .ok .ckload := by decide
theorem test_decode_check : decodeWord 0b00000000_00000000_00000000_00001100#32 = .ok .check := by decide
theorem test_decode_dump : decodeWord 0b00000000_00000000_00000000_00001101#32 = .ok .dump := by decide
theorem test_decode_reset : decodeWord 0b00000000_00000000_00000000_11111111#32 = .ok .reset := by decide

/-- V46: `ldblk 256` is the word 00010009. -/
theorem test_encode_ldblk : encode (.ldblk 256) = 0x00010009#32 := by decide

/-- R177: `stblk 0` is the word 0000000A. -/
theorem test_encode_stblk : encode (.stblk 0) = 0x0000000A#32 := by decide

/-- R94: the ends of the ranges of illegal words. -/
theorem test_decode_illegal :
    decodeWord 0#32 = .error (.unknownOpcode 0#8) ∧ decodeWord 0x0E#32 = .error (.unknownOpcode 0x0E#8) ∧
      decodeWord 0xFE#32 = .error (.unknownOpcode 0xFE#8) ∧
      decodeWord 0x10000001#32 = .error (.nonzeroUpper 1#8) ∧
      decodeWord 0x1FF#32 = .error (.nonzeroUpper 0xFF#8) := by decide

/-- The decoder on opcode-table words, whose operand bits may be absent. -/
theorem test_decodeTableWord :
    decodeTableWord 32 0x09 = some (.ldblk 0) ∧ decodeTableWord 8 0xFF = some .reset ∧
      decodeTableWord 32 0x103 = none := by decide

/-! ### The operators and the cipher -/

/-- V6, V7, V8. -/
theorem test_bswap32 :
    bswap32 0x12345678#32 = 0x78563412#32 ∧ bswap32 0x000000FF#32 = 0xFF000000#32 ∧
      bswap32 0x80000001#32 = 0x01000080#32 := by decide

/-- V9, V10, V11a, V11b. -/
theorem test_roundF :
    (roundF testIdx 0x01020304#32 = 0x648#32 ∧ roundF testIdx 0xFFFFFFFF#32 = 0x444#32) ∧
      roundF testMix 0#32 = 0x032FE488#32 ∧ roundF testMix 0x01020304#32 = 0x6754EAE6#32 ∧
      roundF testMix 0xFFFFFFFF#32 = 0x1E376608#32 ∧ roundF testMix 0x80000000#32 = 0x46EF1008#32 := by
  decide

/-- V12, V13. -/
theorem test_crypt_enc :
    crypt testIdx 0#64 .enc = 0x0000011B000000BE#64 ∧
      crypt testMix 0x0123456789ABCDEF#64 .enc = 0x348A7509236B9388#64 := by decide

/-- V14 and a row of V15. -/
theorem test_crypt_dec :
    crypt testMix 0x0123456789ABCDEF#64 .dec = 0x2271AAB2C986EEA0#64 ∧
      crypt testIdx 0xE7FFDEFFE7FFDEFF#64 .dec = 0xE7FFDE1EE7FFDF38#64 := by decide

/-- V58. -/
theorem test_crc16Rec :
    crc16Rec [] = 0xFFFF#16 ∧ crc16Rec [0#8] = 0x40BF#16 ∧
      crc16Rec [0x31#8, 0x32#8, 0x33#8, 0x34#8, 0x35#8, 0x36#8, 0x37#8, 0x38#8, 0x39#8] = 0x4B37#16 := by
  decide +kernel

/-! ### One step of each command -/

/-- V20: the worked example of R110, and the last entry. -/
theorem test_loadkt :
    testNext
      (testCmd
        { State.reset with
          key := testCells 4168
            [(0, 0xB9#8), (1, 0x79#8), (2, 0x37#8), (3, 0x9E#8), (4, 0x72#8), (5, 0xF3#8), (6, 0x6E#8),
              (7, 0x3C#8), (4164, 0x02#8), (4165, 0x73#8), (4166, 0xCD#8), (4167, 0xFD#8)] }
        0x00000001)
      (fun t => Store.lookup t.kt 0 == some 0x9E3779B9#32 && Store.lookup t.kt 1 == some 0x3C6EF372#32 &&
        Store.lookup t.kt 1041 == some 0xFDCD7302#32 && testRead .valid t == 1) = true := by
  decide +kernel

/-- V21. -/
theorem test_loadkt_short : testFault { State.reset with key := testSpace 4167 } 0x00000001 0x00010101 = true := by
  decide

/-- V24, with the record alone (V25). -/
theorem test_dechdr :
    testNext
      (testCmd
        { State.reset with
          img := testCells 0x200
            [(0x00, 0x54#8), (0x01, 0x45#8), (0x02, 0x53#8), (0x03, 0x54#8), (0x0C, 0x41#8), (0x0D, 0x4D#8),
              (0x0E, 0x43#8), (0x0F, 0x45#8), (0x21, 0x40#8), (0x2D, 0x01#8)] }
        0x00000002)
      (fun t => testRead .title0 t == 0x54534554 && testRead .title1 t == 0 &&
        testRead .gamecode t == 0x45434D41 && testRead .bootOff t == 0x4000 &&
        testRead .bootCnt t == 0x100 && testRead .valid t == 2) = true := by
  decide

/-- V26. -/
theorem test_dechdr_short : testFault { State.reset with img := testSpace 0x1FF } 0x00000002 0x00020201 = true := by
  decide

/-- V12: ENC of 0 over `T_IDX`. -/
theorem test_enc :
    testNext
      (testCmd { testLoaded with kt := testSparseIdx, blkLo := Reg.holds 0#32, blkHi := Reg.holds 0#32 } 0x00000003)
      (fun t => testRead .blkLo t == 0xBE && testRead .blkHi t == 0x11B) = true := by
  decide +kernel

/-- V60. -/
theorem test_enc_invalid : testFault State.reset 0x00000003 0x00030203 = true := by decide

/-- V15: DEC of 0 over `T_IDX`. -/
theorem test_dec :
    testNext
      (testCmd { testLoaded with kt := testSparseIdx, blkLo := Reg.holds 0#32, blkHi := Reg.holds 0#32 } 0x00000004)
      (fun t => testRead .blkLo t == 0x111 && testRead .blkHi t == 0x1EE) = true := by
  decide +kernel

/-- V60. -/
theorem test_dec_invalid : testFault State.reset 0x00000004 0x00040203 = true := by decide

/-- V3: each shift loses a bit, and the right shift is logical. -/
theorem test_mkkey :
    testNext (testCmd { testLoaded with gamecode := Reg.holds 0x80000001#32 } 0x00000005)
      (fun t => testRead .kc0 t == 0x80000001 && testRead .kc1 t == 0x40000000 && testRead .kc2 t == 2) =
      true := by decide

/-- V61. -/
theorem test_mkkey_invalid : testFault State.reset 0x00000005 0x00050203 = true := by decide

/-- Step 1 of DERIVE (R153) over `T_IDX` with `KC[0] = KC[1] = 0`: the low half of V12; `KC[2]` stays. -/
theorem test_derive_keycode :
    testNext
      (testCmd { testLoaded with kt := testSparseIdx, kc0 := Reg.holds 0#32, kc1 := Reg.holds 0#32 } 0x00000006)
      (fun t => testRead .kc0 t == 0xBE && testRead .kc1 t == 0xBE && testRead .kc2 t == 0x2468ACF0) =
      true := by
  decide +kernel

/-- R153, worked example: step 2 and the first iteration of step 3, over `T_MIX`. -/
theorem test_derive_table :
    Store.lookup (foldKeycode (Store.fill [] 0 1042 testMix) 0 0x0A571374#32 0xA478D0C9#32) 0 =
        some 0xEA242EB3#32 ∧
      Store.lookup
        (refill 0 1 0 0#64 (foldKeycode (Store.fill [] 0 1042 testMix) 0 0x0A571374#32 0xA478D0C9#32)) 1 =
        some 0x63EA7005#32 := by
  decide +kernel

/-- V48: the offset test comes before the length of the image. -/
theorem test_extract_layout :
    testFault { testLoaded with bootOff := Reg.holds 0x4008#32, img := testSpace 0x200 } 0x00000007 0x00070102 =
      true := by decide

/-- V49: the declared count is 0. -/
theorem test_extract_empty :
    testFault { testLoaded with bootCnt := Reg.holds 0#32 } 0x00000007 0x00070603 = true := by decide

/-- V45: at `BOOT_OFF = 8000` the area is not present; the first word is not the sentinel. -/
theorem test_classify_beyond :
    testNext (testCmd { testLoaded with bootOff := Reg.holds 0x8000#32 } 0x00000008)
      (fun t => testRead .status t == 4) = true := by decide

/-- V42: the first word is the sentinel. -/
theorem test_classify_sentinel :
    testNext (testCmd { testLoaded with bc := [(0, 0xE7FFDEFFE7FFDEFF#64)] } 0x00000008)
      (fun t => testRead .status t == 2) = true := by decide

/-- R176: the last legal index. -/
theorem test_ldblk :
    testNext (testCmd testLoaded 0x00000109)
      (fun t => testRead .blkLo t == 0x5049423B && testRead .blkHi t == 0x4ADD5E57) = true := by
  decide

/-- R176: the index `BC_LEN` faults. -/
theorem test_ldblk_beyond : testFault testLoaded 0x00000209 0x00090403 = true := by decide

/-- R177: the word is replaced and `STATUS` is not recomputed. -/
theorem test_stblk :
    testNext (testCmd testLoaded 0x0000000A)
      (fun t => Store.lookup t.bc 0 == some 0x0123456789ABCDEF#64 &&
        Store.lookup t.bc 1 == some 0x4ADD5E575049423B#64 && testRead .status t == 0) = true := by
  decide

/-- 2.8: `stblk 0` with `VALID.BLK = 0`. -/
theorem test_stblk_invalid :
    testFault { testLoaded with valid := { testLoaded.valid with blk := false } } 0x0000000A 0x000A0203 = true := by
  decide

/-- V50. -/
theorem test_ckload :
    testNext (testCmd { testLoaded with ckOff := 5#32, ckLen := 7#32 } 0x0000000B)
      (fun t => testRead .ckEmb t == 0x4ADD && testRead .ckOff t == 16 && testRead .ckLen t == 0x7F0) =
      true := by decide

/-- V57: a boot code of one word. -/
theorem test_ckload_short : testFault { testLoaded with bcLen := 1#32 } 0x0000000B 0x000B0403 = true := by
  decide

/-- V52: a wrong length is reported whatever the buffer holds. -/
theorem test_check_length :
    testFault { testLoaded with ckLen := 0x7EF#32 } 0x0000000C 0x000C0303 = true := by decide

/-- V57: 0x800 > 8 * 255. -/
theorem test_check_range : testFault { testLoaded with bcLen := 255#32 } 0x0000000C 0x000C0403 = true := by
  decide

/-- R178, worked example; the bytes beyond the boot code stay. -/
theorem test_dump :
    testNext (testCmd { testLoaded with bcLen := 1#32, out := [(8, 0x77#8)] } 0x0000000D)
      (fun t => t.out == [(0, 0x03#8), (1, 0x0A#8), (2, 0x11#8), (3, 0x18#8), (4, 0x1F#8), (5, 0x26#8),
        (6, 0x2D#8), (7, 0x34#8), (8, 0x77#8)] && testRead .outLen t == 8) = true := by
  decide

/-- 2.8: `dump` with `VALID.BC = 0`. -/
theorem test_dump_invalid : testFault State.reset 0x0000000D 0x000D0203 = true := by decide

/-- V65. -/
theorem test_reset :
    testNext (testCmd testFaulted 0x000000FF)
      (fun t => testRead .status t == 0 && testRead .fault t == 0 && testRead .valid t == 0 &&
        testRead .bcLen t == 0 && testRead .ckOff t == 0x10 && testRead .ckLen t == 0x7F0 &&
        testRead .crcCalc t == 0 && testRead .outLen t == 0) = true := by
  decide

/-- V64: 000001FF is ignored in mode `FAULTED`. -/
theorem test_reset_upper :
    testNext (testCmd testFaulted 0x000001FF)
      (fun t => testRead .status t == 1 && testRead .fault t == 0x00030203 && testRead .valid t == 0xFF) =
      true := by decide

/-- V62, V63: illegal words. -/
theorem test_illegal_words :
    testFault State.reset 0 0x00000103 = true ∧ testFault State.reset 0x103 0x00030103 = true ∧
      testFault State.reset 0x0E 0x000E0103 = true ∧ testFault State.reset 0x1FF 0x00FF0103 = true := by
  decide

/-- V66: read-only bits, the 16 bits of `CK_EMB`, and the read of `CMD`. -/
theorem test_host_writes :
    (testNext (step { State.reset with pending := [.write 32 0x008 0xFFFFFFFF#32] })
        fun t => testRead .valid t == 0x5F) = true ∧
      (testNext (step { State.reset with pending := [.write 32 0x004 0xF#32] })
        fun t => testRead .status t == 0) = true ∧
      (testNext (step { State.reset with pending := [.write 32 0x040 0xABCD1234#32] })
        fun t => testRead .ckEmb t == 0x1234) = true ∧
      (testNext (step { testLoaded with pending := [.read 32 0x000] }) fun t => t.readData == 0#32) = true := by
  decide

/-- R33: the last entry of the key-table window is at 0x2044. -/
theorem test_window_end :
    mappedReg 0x2044 = some (.kt 1041) ∧ mappedReg 0x2048 = none ∧ mappedReg 0x1000 = some (.kt 0) ∧
      mappedReg 0x054 = none ∧ mappedReg 0x050 = some .outLen := by decide

/-! ### Witnesses: states and operands that meet the hypotheses of the statements, clause by clause -/

/-- The state with one more host action to serve. -/
def testWith (s : State) (a : HostAction) : State := { s with pending := [a] }

/-- A state that a step meets, for the statements over steps. -/
def testStepped (s : State) : State := accept [] s

theorem test_witness_DecodeOfEncode : (Instr.ldblk 0xFFFFFF).WellFormed ∧ Instr.reset.WellFormed := by decide

theorem test_witness_EncodeOfDecode : decodeWord 0xFFFFFF09#32 = .ok (.ldblk 0xFFFFFF) := by decide

theorem test_witness_OpcodeMap :
    (Instr.reset, 0x000000FF#32) ∈ [(Instr.loadkt, 0x00000001#32), (Instr.reset, 0x000000FF#32)] := by decide

theorem test_witness_IllegalWords :
    illegalWord 0#32 ∧ illegalWord 0x0E#32 ∧ illegalWord 0xFE#32 ∧ illegalWord 0x101#32 ∧
      ¬illegalWord 0x0D#32 ∧ ¬illegalWord 0xFF#32 ∧ ¬illegalWord 0x109#32 ∧
      (testWith testLoaded (.write 32 0x000 0#32)).pending = [.write 32 0x000 0#32] ∧
      (testWith testLoaded (.write 32 0x000 0#32)).mode = .idle ∧
      (testWith testFaulted (.write 32 0x000 0#32)).pending = [.write 32 0x000 0#32] ∧
      (testWith testFaulted (.write 32 0x000 0#32)).mode = .faulted := by
  unfold illegalWord; decide

theorem test_witness_ExactReset :
    (0xFF#32).toNat % 256 = 0xFF ∧ ((0x1FF#32).toNat % 256 = 0xFF ∧ 0x1FF#32 ≠ 0x000000FF#32) ∧
      (testWith testFaulted (.write 32 0x000 0x1FF#32)).mode = .faulted ∧
      (testWith testLoaded (.write 32 0x000 0x1FF#32)).mode = .idle ∧
      (testWith testLoaded (.write 32 0x000 0x1FF#32)).pending = .write 32 0x000 0x1FF#32 :: [] := by decide

theorem test_witness_StepRuns :
    (testWith testLoaded (.write 32 0x000 5#32)).pending = .write 32 0x000 5#32 :: [] ∧
      decodeWord 5#32 = .ok .mkkey := by decide

theorem test_witness_Waits : testLoaded.pending = [] := by decide

theorem test_witness_Accepted :
    accepted testLoaded [] (.write 32 0x2044 0#32) = true ∧
      accepted testLoaded [.read 32 0] (.supplyImg [1#8]) = true ∧
      accepted testLoaded [] (.read 32 0x2048) = false ∧
      accepted { testLoaded with imgUsed := true } [.read 32 0] (.supplyImg [1#8]) = false ∧
      (testWith testLoaded (.read 32 0x2048)).pending = [.read 32 0x2048] := by decide

theorem test_witness_Unmapped :
    (16 ≠ 32) ∧ 0x002 % 4 ≠ 0 ∧ (0x054 ≤ 0x054 ∧ 0x054 ≤ 0xFFF) ∧ (0x054 ≤ 0xFFC ∧ 0xFFC ≤ 0xFFF) ∧
      0x2048 ≤ 0x2048 := by decide

theorem test_witness_HardwareReset :
    (testWith testFaulted .hardwareReset).pending = .hardwareReset :: [] := by decide

theorem test_witness_Idle : testLoaded.mode = .idle := by decide

theorem test_witness_Loadkt : 4168 ≤ testLoaded.key.len ∧ (testSpace 4167).len < 4168 := by decide

theorem test_witness_Dechdr :
    Config.layout.hdrSize ≤ testLoaded.img.len ∧ (testSpace 0x1FF).len < Config.layout.hdrSize := by decide

/-- ENC, DEC: both bits set, and each bit missing alone. -/
theorem test_witness_Cipher :
    (testLoaded.valid.kt = true ∧ testLoaded.valid.blk = true) ∧ (false && true) = false ∧
      (true && false) = false := by decide

/-- A key table that is wholly written. -/
theorem test_witness_tableIs : tableIs { testLoaded with kt := Store.fill [] 0 1042 testMix } testMix := by
  intro i h
  simp only [Store.lookup_fill, Nat.zero_le, Nat.zero_add, true_and]
  exact if_pos h

theorem test_witness_Mkkey : testLoaded.valid.hdr = true ∧ State.reset.valid.hdr = false := by decide

theorem test_witness_Derive :
    (testLoaded.valid.kt = true ∧ testLoaded.valid.kc = true) ∧
      (State.reset.valid.kt && State.reset.valid.kc) = false := by decide

/-- EXTRACT succeeds: one word, in an image that ends with it. -/
theorem test_witness_Extract :
    testLoaded.valid.hdr = true ∧ getBootOff testLoaded = 0x4000#32 ∧ 1 ≤ (getBootCnt testLoaded).toNat ∧
      (getBootCnt testLoaded).toNat ≤ Config.bcCap ∧
      0x4000 + 8 * (getBootCnt testLoaded).toNat ≤ testLoaded.img.len := by
  refine ⟨by decide, by decide, by decide, ?_, by decide⟩
  have h : (getBootCnt testLoaded).toNat = 1 := by decide
  have := bcCap_bounds
  omega

/-- EXTRACT faults: the header, the offset, the count 0, a count above every capacity, an image that is
one byte short. -/
theorem test_witness_Extract_faults :
    State.reset.valid.hdr = false ∧
      getBootOff { testLoaded with bootOff := Reg.holds 0x4008#32 } ≠ 0x4000#32 ∧
      getBootCnt { testLoaded with bootCnt := Reg.holds 0#32 } = 0#32 ∧
      Config.bcCap < (getBootCnt { testLoaded with bootCnt := Reg.holds 0x01000001#32 }).toNat ∧
      (testSpace 0x4007).len < 0x4000 + 8 * (getBootCnt { testLoaded with img := testSpace 0x4007 }).toNat := by
  refine ⟨by decide, by decide, by decide, ?_, by decide⟩
  have h : (getBootCnt { testLoaded with bootCnt := Reg.holds 0x01000001#32 }).toNat = 2 ^ 24 + 1 := by decide
  have := bcCap_bounds
  omega

theorem test_witness_Classify :
    (testLoaded.valid.hdr = true ∧ testLoaded.valid.bc = true ∧ 1 ≤ testLoaded.bcLen.toNat) ∧
      (State.reset.valid.hdr && State.reset.valid.bc) = false ∧
      ({ testLoaded with bcLen := 0#32 } : State).bcLen = 0#32 := by decide

/-- LDBLK, STBLK: the last index, and the first beyond it. -/
theorem test_witness_Block :
    (testLoaded.valid.bc = true ∧ testLoaded.valid.blk = true ∧ 1 < testLoaded.bcLen.toNat) ∧
      State.reset.valid.bc = false ∧ (State.reset.valid.bc && State.reset.valid.blk) = false ∧
      testLoaded.bcLen.toNat ≤ 2 := by decide

theorem test_witness_Dump : testLoaded.valid.bc = true ∧ State.reset.valid.bc = false := by decide

theorem test_witness_Ckload :
    (testLoaded.valid.bc = true ∧ 2 ≤ testLoaded.bcLen.toNat) ∧ State.reset.valid.bc = false ∧
      ({ testLoaded with bcLen := 1#32 } : State).bcLen.toNat < 2 := by decide

/-- CHECK: the slice ends with the buffer; it ends one byte beyond; the length is wrong. -/
theorem test_witness_Check :
    (testLoaded.valid.bc = true ∧ testLoaded.valid.ckin = true ∧ testLoaded.ckLen = 0x7F0#32 ∧
        testLoaded.ckOff.toNat + 0x7F0 ≤ 8 * ({ testLoaded with bcLen := 256#32 } : State).bcLen.toNat) ∧
      8 * (256#32).toNat < (17#32).toNat + 0x7F0 ∧ 0x7EF#32 ≠ 0x7F0#32 ∧
      (State.reset.valid.bc && State.reset.valid.ckin) = false := by decide

/-- The values `x` and `y` take over `T`, with the subkeys `key`. -/
def testTrace (T : Table) (key : Nat → Nat) (b : Block) : Nat → Word × Word
  | 0 => (loHalf b, hiHalf b)
  | r + 1 => cipherRound T (key r) (testTrace T key b r)

theorem test_witness_Rounds :
    ((testTrace testMix id 5#64 0).1.toNat = (5#64).toNat % 2 ^ 32 ∧
        (testTrace testMix id 5#64 0).2.toNat = (5#64).toNat / 2 ^ 32 ∧
        (∀ r, r < 16 →
          (testTrace testMix id 5#64 (r + 1)).1 =
              (testTrace testMix id 5#64 r).2 ^^^ roundF testMix (testMix (id r) ^^^ (testTrace testMix id 5#64 r).1) ∧
            (testTrace testMix id 5#64 (r + 1)).2 = testMix (id r) ^^^ (testTrace testMix id 5#64 r).1)) ∧
      (∀ r, r < 16 → id r = r) ∧ ∀ r, r < 16 → (fun r => 17 - r) r = 17 - r :=
  ⟨⟨by decide, by decide, fun _ _ => ⟨rfl, rfl⟩⟩, fun _ _ => rfl, fun _ _ => rfl⟩

/-- A table with equal final words that is not all zero. -/
theorem test_witness_RoundTrip :
    (fun i => BitVec.ofNat 32 (i / 2) : Table) 16 = (fun i => BitVec.ofNat 32 (i / 2) : Table) 17 ∧
      (fun i => BitVec.ofNat 32 (i / 2) : Table) 0 = (fun i => BitVec.ofNat 32 (i / 2) : Table) 1 := by decide

/-- Two tables that differ beyond the table alone. -/
theorem test_witness_TableOnly :
    (∀ i, i < 1042 → testIdx i = Function.update testIdx 1042 7#32 i) ∧
      testIdx 1042 ≠ Function.update testIdx 1042 7#32 1042 := by
  refine ⟨fun i h => ?_, by decide⟩
  rw [Function.update_of_ne (by omega)]

/-- Two tables that differ in a final word alone. -/
theorem test_witness_FinalWords :
    (∀ i, i ≠ 16 → i ≠ 17 → testIdx i = Function.update testIdx 17 7#32 i) ∧
      ∀ i, i ≠ 0 → i ≠ 1 → testIdx i = Function.update testIdx 0 7#32 i :=
  ⟨fun _ _ h => (Function.update_of_ne h _ _).symm, fun _ h _ => (Function.update_of_ne h _ _).symm⟩

theorem test_witness_exec_derive : exec .derive testLoaded = .next (effectDerive testLoaded) :=
  exec_succeeds (by simp) (by decide) (by decide)

theorem test_witness_exec_extract :
    testLoaded.mode = .idle ∧ exec .extract testLoaded = .next (effectExtract testLoaded) ∧
      (effectExtract testLoaded).mode = .idle := by
  refine ⟨by decide, exec_succeeds (by simp) (by decide) ?_, by simp only [effectExtract_frame]; decide⟩
  have h := test_witness_Extract
  have h1 : decide ((getBootCnt testLoaded).toNat ≤ Config.bcCap) = true := decide_eq_true h.2.2.2.1
  simp only [needsOf, needsExtract, firstFailure_cons, firstFailure_nil, h1]
  decide

theorem test_witness_exec_stblk :
    8 ≤ testLoaded.ckOff.toNat ∧ exec (.stblk 0) testLoaded = .next (effectStblk 0 testLoaded) :=
  ⟨by decide, exec_succeeds (by simp) (by decide) (by decide)⟩

/-- A buffer that differs beyond `BC_LEN` alone. -/
theorem test_witness_Buffer :
    exec .dump testLoaded = .next (effectDump testLoaded) ∧
      (∀ k, k < testLoaded.bcLen.toNat →
        Store.lookup (Store.put testLoaded.bc 2 9#64) k = Store.lookup testLoaded.bc k) ∧ Instr.dump ≠ .reset :=
  ⟨exec_succeeds (by simp) (by decide) (by decide), by decide, by decide⟩

theorem test_witness_exec_fails :
    State.reset.mode = .idle ∧ exec .enc State.reset = .next (raise .precondition 2#8 3#8 State.reset) ∧
      (raise .precondition 2#8 3#8 State.reset).mode = .faulted ∧ Instr.enc ≠ .reset :=
  ⟨rfl, rfl, rfl, by decide⟩

theorem test_witness_Faulted : testFaulted.mode = .faulted ∧ Instr.enc ≠ .reset := by decide

/-- Steps in mode `FAULTED`: both resets, and a write that is neither. -/
theorem test_witness_step_faulted :
    testFaulted.mode = .faulted ∧
      step (testWith testFaulted .hardwareReset) = .next (resetEngine (testStepped (testWith testFaulted .hardwareReset))) ∧
      step (testWith testFaulted (.write 32 0x000 0xFF#32)) =
        .next (resetEngine (testStepped (testWith testFaulted (.write 32 0x000 0xFF#32)))) ∧
      step (testWith testFaulted (.write 32 0x028 0x4000#32)) =
        .next (testStepped (testWith testFaulted (.write 32 0x028 0x4000#32))) ∧
      ∀ rest, (testWith testFaulted (.write 32 0x028 0x4000#32)).pending ≠ .hardwareReset :: rest ∧
        (testWith testFaulted (.write 32 0x028 0x4000#32)).pending ≠ .write 32 0x000 0xFF#32 :: rest :=
  ⟨by decide, by rfl, by rfl, by rfl, fun _ => by simp [testWith]⟩

/-- A step from mode `IDLE` into mode `FAULTED`. -/
theorem test_witness_step_fault :
    (testWith State.reset (.write 32 0x000 3#32)).mode = .idle ∧
      (testWith State.reset (.write 32 0x000 3#32)).pending = .write 32 0x000 3#32 :: [] ∧
      step (testWith State.reset (.write 32 0x000 3#32)) =
        .next (raise .precondition 2#8 3#8 (testStepped (testWith State.reset (.write 32 0x000 3#32)))) ∧
      (raise .precondition 2#8 3#8 (testStepped (testWith State.reset (.write 32 0x000 3#32)))).mode =
        .faulted := ⟨rfl, rfl, rfl, rfl⟩

/-- A command that writes, for the statements about writers, valid bits and inputs. -/
theorem test_witness_exec_mkkey :
    exec .mkkey testLoaded = .next (effectMkkey testLoaded) ∧ Instr.mkkey ≠ .reset ∧ Instr.mkkey ≠ .extract ∧
      Instr.mkkey ≠ .classify ∧ Instr.mkkey ≠ .check ∧ Instr.mkkey ≠ .enc ∧ Instr.mkkey ≠ .dec ∧
      Instr.mkkey ≠ .loadkt ∧ Instr.mkkey ≠ .derive ∧ Instr.mkkey ≠ .dechdr ∧ Instr.mkkey ≠ .ckload ∧
      Instr.mkkey ≠ .dump ∧ (∀ k, Instr.mkkey ≠ .ldblk k) ∧ ∀ k, Instr.mkkey ≠ .stblk k :=
  ⟨exec_succeeds (by simp) (by decide) (by decide), by decide, by decide, by decide, by decide, by decide,
    by decide, by decide, by decide, by decide, by decide, by decide, by simp, by simp⟩

/-- A command whose meaning leaves `KC` alone, for the clauses about `KC`. -/
theorem test_witness_exec_ckload :
    exec .ckload testLoaded = .next (effectCkload testLoaded) ∧ Instr.ckload ≠ .mkkey ∧
      Instr.ckload ≠ .derive :=
  ⟨exec_succeeds (by simp) (by decide) (by decide), by decide, by decide⟩

theorem test_witness_exec_reset : exec .reset testLoaded = .next (resetEngine testLoaded) := by rfl

/-- A step inside a run that has used both inputs. -/
theorem test_witness_Inputs :
    step (testWith { testLoaded with imgUsed := true, keyUsed := true } (.readOut 0)) =
        .next (returnRead ((outByte (testStepped (testWith { testLoaded with imgUsed := true, keyUsed := true }
          (.readOut 0))) 0).setWidth 32) (testStepped (testWith { testLoaded with imgUsed := true, keyUsed := true }
          (.readOut 0)))) ∧
      ({ testLoaded with imgUsed := true, keyUsed := true } : State).imgUsed = true ∧
      ({ testLoaded with imgUsed := true, keyUsed := true } : State).keyUsed = true := ⟨rfl, rfl, rfl⟩

/-- LOADKT, DECHDR and EXTRACT, each served in mode `IDLE` in a run that has used no input (R77). -/
theorem test_witness_Inputs_used :
    (∃ t, step (testLoaded.withFetchWord 32 0x01) = .next t ∧ t.keyUsed = true ∧ t.imgUsed = false) ∧
      (∃ t, step (testLoaded.withFetchWord 32 0x02) = .next t ∧ t.imgUsed = true ∧ t.keyUsed = false) ∧
      (∃ t, step (testLoaded.withFetchWord 32 0x07) = .next t ∧ t.imgUsed = true ∧ t.keyUsed = false) ∧
      servesCommand .loadkt (testLoaded.withFetchWord 32 0x01) ∧
      servesCommand .dechdr (testLoaded.withFetchWord 32 0x02) ∧
      servesCommand .extract (testLoaded.withFetchWord 32 0x07) ∧ testLoaded.mode = .idle := by
  refine ⟨⟨effectLoadkt (noteInputs .loadkt (accept [] testLoaded)), ?_, ?_, ?_⟩,
    ⟨effectDechdr Config.layout (noteInputs .dechdr (accept [] testLoaded)), ?_, ?_, ?_⟩,
    ⟨effectExtract (noteInputs .extract (accept [] testLoaded)), ?_, ?_, ?_⟩,
    ⟨_, _, rfl, by decide⟩, ⟨_, _, rfl, by decide⟩, ⟨_, _, rfl, by decide⟩, rfl⟩
  · exact exec_succeeds (i := .loadkt) (s := noteInputs .loadkt (accept [] testLoaded)) (by simp) rfl rfl
  · simp only [effectLoadkt_frame]; rfl
  · simp only [effectLoadkt_frame]; rfl
  · exact exec_succeeds (i := .dechdr) (s := noteInputs .dechdr (accept [] testLoaded)) (by simp) rfl rfl
  · simp only [effectDechdr_frame]; rfl
  · simp only [effectDechdr_frame]; rfl
  · refine exec_succeeds (i := .extract) (s := noteInputs .extract (accept [] testLoaded)) (by simp) rfl ?_
    have h : 1 ≤ Config.bcCap := by have := bcCap_bounds; omega
    have h1 : (getBootCnt (noteInputs .extract (accept [] testLoaded))).toNat = 1 := by decide
    simp only [needsOf, needsExtract, firstFailure_cons, firstFailure_nil, h1]
    simp [h]
    decide
  · simp only [effectExtract_frame]; rfl
  · simp only [effectExtract_frame]; rfl

/-- Both kinds of reset in a run that has used both inputs, and an action that is no reset. -/
theorem test_witness_Inputs_reset :
    servesReset (testWith { testLoaded with imgUsed := true, keyUsed := true } .hardwareReset) ∧
      step (testWith { testLoaded with imgUsed := true, keyUsed := true } .hardwareReset) =
        .next (resetEngine (testStepped (testWith { testLoaded with imgUsed := true, keyUsed := true }
          .hardwareReset))) ∧
      servesReset (testFaulted.withFetchWord 32 0xFF) ∧
      step (testFaulted.withFetchWord 32 0xFF) =
        .next (resetEngine (accept [] testFaulted)) ∧
      ¬servesReset (testWith { testLoaded with imgUsed := true, keyUsed := true } (.readOut 0)) :=
  ⟨⟨_, .inl rfl⟩, rfl, ⟨_, .inr rfl⟩, rfl, by simp [servesReset, testWith]⟩

/-- `OUT` after the DUMP of R178's worked example: a byte below `OUT_LEN`, read back in mode `FAULTED`. -/
theorem test_readOut_dumped :
    testNext (step (testWith { testFaulted with
      out := [(0, 0x03#8), (1, 0x0A#8)], outLen := 2#32 } (.readOut 1)))
      (fun t => t.readData == 0x0A#32 && decide (t.mode = .faulted)) = true := by decide

/-- Addresses on both sides of `OUT_LEN`, and a state before a DUMP. -/
theorem test_witness_readOut :
    ((testWith { testFaulted with out := [(0, 0x03#8), (1, 0x0A#8)], outLen := 2#32 } (.readOut 1)).pending =
        .readOut 1 :: [] ∧ 1 < (2#32).toNat ∧ ¬2 < (2#32).toNat ∧
        Store.lookup [(0, 0x03#8), (1, 0x0A#8)] 1 = some 0x0A#8 ∧ Store.lookup State.reset.out 0 = none) ∧
      testLoaded.mode = .idle ∧ testLoaded.valid.bc = true ∧ testLoaded.bcLen.toNat ≤ Config.bcCap ∧
      15 < 8 * testLoaded.bcLen.toNat := by
  refine ⟨by decide, rfl, rfl, ?_, by decide⟩
  have h : testLoaded.bcLen.toNat = 2 := by decide
  have := bcCap_bounds
  omega

/-- A state that meets the invariant, with a byte of `OUT` to read. -/
theorem test_witness_readOut_invariant :
    EngineInvariant { State.reset with out := [(0, 0x03#8)], outLen := 1#32, pending := [.readOut 0] } ∧
      0 < (1#32).toNat := by
  refine ⟨⟨by decide, by decide, ?_, by decide, ?_, by decide, by decide, by decide⟩, by decide⟩
  · exact Nat.zero_le _
  · intro a h
    have h0 : a = 0 := by
      have : a < 1 := h
      omega
    subst h0
    decide

/-- A supplied image: its length, a byte that is 0 and its last byte (R6, R14, R77). -/
theorem test_supplyImg :
    testNext (step (testWith State.reset (.supplyImg [0x11#8, 0x00#8, 0x33#8])))
      (fun t => t.img.len == 3 && t.img.byte 1 == 0x00#8 && t.img.byte 2 == 0x33#8 && t.key.len == 0) =
        true := by decide

/-- R78, R262: after a fault the host supplies the next image and then resets, although the run used `IMG`. -/
theorem test_supply_faulted :
    testNext (step { testFaulted with
      imgUsed := true, pending := [.supplyImg [0x11#8], .read 32 0x00C, .hardwareReset] })
      (fun t => t.img.len == 1 && decide (t.mode = .faulted)) = true := by decide

/-- R78, R262, U22: in a run that used `KEY`, a supply is served before the RESET word and refused before
another command. -/
theorem test_supply_inside_run :
    testNext (step { testLoaded with
      keyUsed := true, pending := [.supplyKey [0x11#8], .readOut 0, .write 32 0 0xFF#32] })
      (fun t => t.key.len == 1) = true ∧
    step { testLoaded with keyUsed := true, pending := [.supplyKey [0x11#8], .write 32 0 0x01#32] } =
      .refused .inputChangedInRun := ⟨by decide, rfl⟩

/-- The host is done in both forms of a coming reset and with nothing to come, and is not before a command;
a supply of the bytes an input has is no change. -/
theorem test_witness_supply_ended :
    testFaulted.mode = .faulted ∧ hostIsDone [] ∧ hostIsDone [.supplyImg [1#8], .hardwareReset, .read 32 0] ∧
      hostIsDone [.readOut 0, .write 32 0 0xFF#32, .write 32 0 1#32] ∧ ¬hostIsDone [.write 32 0 1#32] ∧
      testLoaded.mode = .idle ∧ State.reset.img = Space.ofBytes [] ∧ testLoaded.img ≠ Space.ofBytes [1#8] ∧
      testLoaded.key ≠ Space.ofBytes [1#8] := by
  simp only [hostIsDone_cons, hostIsDone_nil]; decide

/-- A step that changes a used input after the run, for the clauses of the invariant about it. -/
theorem test_witness_Inputs_changed :
    step { testLoaded with
        imgUsed := true, keyUsed := true, pending := [.supplyImg [0x11#8], .supplyKey [0x22#8]] } =
        .next { testLoaded with
          imgUsed := true, keyUsed := true, img := Space.ofBytes [0x11#8], draws := 1,
          pending := [.supplyKey [0x22#8]] } ∧
      testLoaded.img ≠ Space.ofBytes [0x11#8] ∧
      ¬servesReset { testLoaded with pending := [.supplyImg [0x11#8], .supplyKey [0x22#8]] } ∧
      step { testLoaded with keyUsed := true, pending := [.supplyKey [0x22#8]] } =
        .next { testLoaded with keyUsed := true, key := Space.ofBytes [0x22#8], draws := 1, pending := [] } ∧
      testLoaded.key ≠ Space.ofBytes [0x22#8] := by
  exact ⟨rfl, by decide, by simp [servesReset], rfl, by decide⟩

/-- Inputs not yet used and used, for both clauses of each supply. -/
theorem test_witness_supply :
    (testWith State.reset (.supplyImg [0x11#8])).pending = .supplyImg [0x11#8] :: [] ∧
      (testWith State.reset (.supplyKey [0x11#8])).pending = .supplyKey [0x11#8] :: [] ∧
      State.reset.imgUsed = false ∧ State.reset.keyUsed = false ∧
      (testWith { testLoaded with imgUsed := true } (.supplyImg [0x11#8])).imgUsed = true ∧
      (testWith { testLoaded with keyUsed := true } (.supplyKey [0x11#8])).keyUsed = true := by decide

theorem test_witness_UnwrittenReads :
    State.reset.blkLo.written = false ∧ State.reset.ckEmb.written = false ∧
      Store.lookup State.reset.kt 1041 = none ∧ Store.lookup State.reset.bc 0 = none ∧
      testLoaded.blkLo.written = true ∧
      ({ State.reset with pending := [.read 32 0x010, .read 32 0x010] } : State).pending =
        .read 32 0x010 :: .read 32 0x010 :: [] := by decide

/-- Values of `BC_LEN` on both sides of every capacity. -/
theorem test_witness_BcLen : (256#32).toNat ≤ Config.bcCap ∧ Config.bcCap < (0x01000001#32).toNat := by
  have h1 : (256#32).toNat = 256 := by decide
  have h2 : (0x01000001#32).toNat = 2 ^ 24 + 1 := by decide
  have := bcCap_bounds
  omega

theorem test_witness_HostWrite :
    testLoaded.mode = .idle ∧ HostReg.ckLen ∈ [HostReg.blkLo, .ckOff, .ckLen] ∧ HostReg.kt 1 ≠ HostReg.kt 0 := by
  decide

theorem test_witness_HostAccess :
    ∃ (u : State) (rd wr : Nat → Result),
      u = { testLoaded with pending := [], draws := testLoaded.draws + 1 } ∧
        (∀ o, rd o = step { testLoaded with pending := .read 32 o :: [] }) ∧
        (∀ o, wr o = step { testLoaded with pending := .write 32 o 7#32 :: [] }) ∧ testLoaded.mode = .idle :=
  ⟨_, _, _, rfl, fun _ => rfl, fun _ => rfl, rfl⟩

/-- A state other than reset that meets the invariant, and a step from it. -/
theorem test_witness_Invariant :
    EngineInvariant (testWith testFaulted .hardwareReset) ∧
      step (testWith testFaulted .hardwareReset) =
        .next (resetEngine (testStepped (testWith testFaulted .hardwareReset))) := by
  refine ⟨⟨by decide, ?_, ?_, by decide, ?_, by decide, by decide, by decide⟩, by rfl⟩
  · have := bcCap_bounds
    simp [testWith, testFaulted, testLoaded, Store.risingIn]
    omega
  · have h : (testWith testFaulted .hardwareReset).bcLen.toNat = 2 := by decide
    have := bcCap_bounds
    omega
  · intro a h
    have h0 : (testWith testFaulted .hardwareReset).outLen.toNat = 0 := by decide
    omega
end

section
/-! Supplying an input (R77, R78): what the supplied space holds, what the step answers, and O60. -/

namespace Sys2Proof.Machine

/-! ### The bytes of a supplied space (R6, R14) -/

theorem Space.byte_ofBytes_of_getElem? {bytes : List Byte} {a : Nat} {v : Byte} (h : bytes[a]? = some v) :
    (Space.ofBytes bytes).byte a = v := by
  rw [Space.byte_ofBytes, List.getD_eq_getElem?_getD, h, Option.getD_some]

/-- Read from its start to its end, a supplied space gives back the host's bytes in order. -/
theorem memRead_ofBytes (bytes : List Byte) : memRead (Space.ofBytes bytes) 0 bytes.length = bytes := by
  refine List.ext_getElem (by simp [memRead]) fun j _ hj => ?_
  simpa [memRead] using Space.byte_ofBytes_of_getElem? (List.getElem?_eq_getElem hj)

/-! ### The step that serves a supply -/

theorem step_supplyImg {s : State} {bytes : List Byte} {rest : List HostAction}
    (hp : s.pending = .supplyImg bytes :: rest) :
    step s = if supplyAllowed s.imgUsed s.img (Space.ofBytes bytes) (accept rest s)
      then .next (supplyImage bytes (accept rest s)) else .refused .inputChangedInRun := by
  by_cases allowed : supplyAllowed s.imgUsed s.img (Space.ofBytes bytes) (accept rest s) = true
  · simp [step, hp, serve, allowed]
  · simp [step, hp, serve, allowed]

theorem step_supplyKey {s : State} {bytes : List Byte} {rest : List HostAction}
    (hp : s.pending = .supplyKey bytes :: rest) :
    step s = if supplyAllowed s.keyUsed s.key (Space.ofBytes bytes) (accept rest s)
      then .next (supplyBlob bytes (accept rest s)) else .refused .inputChangedInRun := by
  by_cases allowed : supplyAllowed s.keyUsed s.key (Space.ofBytes bytes) (accept rest s) = true
  · simp [step, hp, serve, allowed]
  · simp [step, hp, serve, allowed]

/-- When a supply is served, with `rest` to come after it (R78). -/
theorem supplyAllowed_accept_iff (used : Bool) (old new : Space) (rest : List HostAction) (s : State) :
    supplyAllowed used old new (accept rest s) = true ↔
      used = false ∨ s.mode = .faulted ∨ hostIsDone rest ∨ old = new := by
  rw [supplyAllowed_iff, accept_mode, accept_pending, eq_comm (a := new)]

/-- A change of a used input inside the run is not allowed (U22). -/
theorem not_supplyAllowed_inside_run {used : Bool} {old new : Space} {rest : List HostAction} {s : State}
    (hused : used = true) (hidle : s.mode = .idle) (hmore : ¬hostIsDone rest) (hchange : old ≠ new) :
    ¬supplyAllowed used old new (accept rest s) = true := by
  simp [supplyAllowed_accept_iff, hused, hidle, hmore, hchange]

end Sys2Proof.Machine

open Sys2Proof Sys2Proof.Machine

/-- Settles O60: the step that serves a supply is decided by `supplyAllowed`, and a supplied space gives
its bytes back. -/
theorem supplyGivesTheInputItsBytes : Obligations.SupplyGivesTheInputItsBytes := by
  intro s rest bytes
  refine ⟨fun hp => ?_, fun hp => ?_⟩
  · rw [step_supplyImg hp]
    refine ⟨fun outside => ⟨supplyImage bytes (accept rest s), ?_, rfl, memRead_ofBytes bytes,
      fun _ _ => Space.byte_ofBytes_of_getElem?, rfl⟩, fun hused hidle hmore hchange => ?_⟩
    · rw [if_pos ((supplyAllowed_accept_iff ..).mpr outside)]
    · rw [if_neg (not_supplyAllowed_inside_run hused hidle hmore hchange)]
  · rw [step_supplyKey hp]
    refine ⟨fun outside => ⟨supplyBlob bytes (accept rest s), ?_, rfl, memRead_ofBytes bytes,
      fun _ _ => Space.byte_ofBytes_of_getElem?, rfl⟩, fun hused hidle hmore hchange => ?_⟩
    · rw [if_pos ((supplyAllowed_accept_iff ..).mpr outside)]
    · rw [if_neg (not_supplyAllowed_inside_run hused hidle hmore hchange)]
end

section
/-! What a command can do, compared across two states; which requirements a success has met. -/

namespace Sys2Proof.Machine

/-! ### Commands, once for every rule over all of them -/

/-- Where a command can leave the state: as it was, at a fault entry, or at its effect. -/
theorem exec_outcomes {i : Instr} {s t : State} (h : exec i s = .next t) :
    t = s ∨ (∃ k info, t = raise k info i.opcode s) ∨ t = effectOf i s := by
  rcases exec_cases h with ⟨rfl, rfl⟩ | ⟨-, -, rfl⟩ | ⟨-, -, q, -, rfl⟩ | ⟨-, -, -, rfl⟩
  · exact .inr (.inr rfl)
  · exact .inl rfl
  · exact .inr (.inl ⟨_, _, rfl⟩)
  · exact .inr (.inr rfl)

/-- Two states of one mode that meet the same requirements take the same path through a command, so a
relation that fault entry and the effect of `i` keep holds between the answers. -/
theorem exec_related {R : State → State → Prop} {i : Instr} {s s' t : State} (h : exec i s = .next t)
    (hmode : s'.mode = s.mode) (hneeds : needsOf i s' = needsOf i s) (hsame : R s s')
    (hraise : ∀ k info op, R (raise k info op s) (raise k info op s'))
    (heffect : firstFailure (needsOf i s) = none → R (effectOf i s) (effectOf i s')) :
    ∃ u, exec i s' = .next u ∧ R t u := by
  rcases exec_cases h with ⟨rfl, rfl⟩ | ⟨hr, hm, rfl⟩ | ⟨hr, hm, q, hq, rfl⟩ | ⟨hr, hm, hq, rfl⟩
  · exact ⟨_, exec_reset s', heffect rfl⟩
  · exact ⟨s', by rw [exec_eq_command i s' hr, command_faulted (hmode.trans hm)], hsame⟩
  · exact ⟨_, exec_fails hr (hmode.trans hm) (hneeds ▸ hq), hraise _ _ _⟩
  · exact ⟨_, exec_succeeds hr (hmode.trans hm) (hneeds ▸ hq), heffect hq⟩

/-! ### What DERIVE reads (R153) -/

theorem derivedKc0_congr {s s' : State} (hkt : s'.kt = s.kt) (hdraws : s'.draws = s.draws)
    (hkc : s'.kc0 = s.kc0) : derivedKc0 s' = derivedKc0 s := by
  simp only [derivedKc0, getKc0, free, hkt, hdraws, hkc]

theorem derivedKc1_congr {s s' : State} (hkt : s'.kt = s.kt) (hdraws : s'.draws = s.draws)
    (hkc : s'.kc1 = s.kc1) : derivedKc1 s' = derivedKc1 s := by
  simp only [derivedKc1, getKc1, free, hkt, hdraws, hkc]

/-! ### What the requirements of a success say -/

theorem firstFailure_eq_none_iff {rs : List Requirement} :
    firstFailure rs = none ↔ ∀ q ∈ rs, q.holds = true := by
  induction rs with
  | nil => simp
  | cons r rest ih => cases hr : r.holds <;> simp [hr, ih]

theorem bootCnt_le_cap_of_needsExtract {s : State} (h : firstFailure (needsExtract s) = none) :
    (getBootCnt s).toNat ≤ Config.bcCap := by
  simpa using firstFailure_eq_none_iff.mp h ⟨decide ((getBootCnt s).toNat ≤ Config.bcCap), .precondition, 5#8⟩
    (by simp [needsExtract])

theorem one_le_bcLen_of_needsClassify {s : State} (h : firstFailure (needsClassify s) = none) :
    1 ≤ s.bcLen.toNat := by
  simpa using firstFailure_eq_none_iff.mp h ⟨decide (1 ≤ s.bcLen.toNat), .precondition, 6#8⟩
    (by simp [needsClassify])

theorem idx_lt_bcLen_of_needsLdblk {idx : Nat} {s : State} (h : firstFailure (needsLdblk idx s) = none) :
    idx < s.bcLen.toNat := by
  simpa using firstFailure_eq_none_iff.mp h ⟨decide (idx < s.bcLen.toNat), .precondition, 4#8⟩
    (by simp [needsLdblk])

theorem idx_lt_bcLen_of_needsStblk {idx : Nat} {s : State} (h : firstFailure (needsStblk idx s) = none) :
    idx < s.bcLen.toNat := by
  simpa using firstFailure_eq_none_iff.mp h ⟨decide (idx < s.bcLen.toNat), .precondition, 4#8⟩
    (by simp [needsStblk])

theorem two_le_bcLen_of_needsCkload {s : State} (h : firstFailure (needsCkload s) = none) :
    2 ≤ s.bcLen.toNat := by
  simpa using firstFailure_eq_none_iff.mp h ⟨decide (2 ≤ s.bcLen.toNat), .precondition, 4#8⟩
    (by simp [needsCkload])

/-- The slice that CHECK reads lies inside the boot code (R202). -/
theorem slice_inside_of_needsCheck {s : State} (h : firstFailure (needsCheck s) = none) :
    s.ckOff.toNat + Config.ckSlice.toNat ≤ 8 * s.bcLen.toNat := by
  have holds := firstFailure_eq_none_iff.mp h
  simp only [needsCheck, List.forall_mem_cons, decide_eq_true_eq] at holds
  obtain ⟨-, hlen, hrange, -⟩ := holds
  rwa [hlen] at hrange

end Sys2Proof.Machine
end

section
/-! Buffer words at or beyond `BC_LEN` (R29): no command's effect depends on one, and none but EXTRACT and
RESET writes one. Settles O38. -/

namespace Sys2Proof.Machine

/-- Filling depends on the new values of the filled cells alone. -/
theorem Store.fill_congr {w : Nat} (m : Store w) (start n : Nat) {f g : Nat → BitVec w}
    (h : ∀ k, start ≤ k → k < start + n → f k = g k) : Store.fill m start n f = Store.fill m start n g := by
  induction n generalizing start with
  | zero => rfl
  | succ n ih =>
    simp only [Store.fill]
    rw [h start (Nat.le_refl _) (by omega), ih (start + 1) fun k _ _ => h k (by omega) (by omega)]

/-- The states `t` and `u` differ in buffer words at or beyond `BC_LEN` alone. -/
def AgreeBelowBcLen (t u : State) : Prop :=
  { u with bc := t.bc } = t ∧ ∀ k, k < t.bcLen.toNat → Store.lookup u.bc k = Store.lookup t.bc k

/-- The state with another buffer. -/
abbrev withBuffer (m : Store 64) (s : State) : State := { s with bc := m }

theorem effectDerive_withBuffer (m : Store 64) (s : State) :
    effectDerive (withBuffer m s) = withBuffer m (effectDerive s) := by
  simp only [effectDerive, derivedKc0_congr (s := s) (s' := withBuffer m s) rfl rfl rfl,
    derivedKc1_congr (s := s) (s' := withBuffer m s) rfl rfl rfl]

theorem AgreeBelowBcLen.of_extract (m : Store 64) (s : State) :
    AgreeBelowBcLen (effectExtract s) (effectExtract (withBuffer m s)) := by
  refine ⟨rfl, fun k hk => ?_⟩
  simp only [effectExtract_result] at hk ⊢
  have hcnt : k < 0 + (getBootCnt s).toNat := by omega
  rw [Store.lookup_fill_in s.bc _ (Nat.zero_le k) hcnt]
  exact Store.lookup_fill_in m _ (Nat.zero_le k) hcnt

section
variable {s : State} {m : Store 64}
  (hm : ∀ k, k < s.bcLen.toNat → Store.lookup m k = Store.lookup s.bc k)
include hm

theorem getBc_withBuffer {k : Nat} (hk : k < s.bcLen.toNat) : getBc (withBuffer m s) k = getBc s k := by
  simp only [getBc, hm k hk]; rfl

theorem bcByte_withBuffer {j : Nat} (hj : j < 8 * s.bcLen.toNat) :
    bcByte (withBuffer m s) j = bcByte s j := by
  simp only [bcByte, getBc_withBuffer hm (show j / 8 < s.bcLen.toNat by omega)]

theorem bcBytes_withBuffer {a n : Nat} (h : a + n ≤ 8 * s.bcLen.toNat) :
    bcBytes (withBuffer m s) a n = bcBytes s a n := by
  refine List.map_congr_left fun j hj => bcByte_withBuffer hm ?_
  have := List.mem_range.mp hj
  omega

theorem effectClassify_withBuffer (h : firstFailure (needsClassify s) = none) :
    effectClassify (withBuffer m s) = withBuffer m (effectClassify s) := by
  simp only [effectClassify, getBc_withBuffer hm (one_le_bcLen_of_needsClassify h)]; rfl

theorem effectLdblk_withBuffer {idx : Nat} (h : firstFailure (needsLdblk idx s) = none) :
    effectLdblk idx (withBuffer m s) = withBuffer m (effectLdblk idx s) := by
  simp only [effectLdblk, getBc_withBuffer hm (idx_lt_bcLen_of_needsLdblk h)]; rfl

theorem effectCkload_withBuffer (h : firstFailure (needsCkload s) = none) :
    effectCkload (withBuffer m s) = withBuffer m (effectCkload s) := by
  have hlen := two_le_bcLen_of_needsCkload h
  have h15 : Config.ckEmbPos + 1 < 8 * s.bcLen.toNat := by simp only [Config.ckEmbPos]; omega
  simp only [effectCkload, bcByte_withBuffer hm h15, bcByte_withBuffer hm (Nat.lt_of_succ_lt h15)]

theorem effectCheck_withBuffer (h : firstFailure (needsCheck s) = none) :
    effectCheck (withBuffer m s) = withBuffer m (effectCheck s) := by
  have hsum : sliceChecksum (withBuffer m s) = sliceChecksum s :=
    congrArg Config.crc16 (bcBytes_withBuffer hm (slice_inside_of_needsCheck h))
  simp only [effectCheck, hsum]; rfl

theorem effectDump_withBuffer : effectDump (withBuffer m s) = withBuffer m (effectDump s) := by
  have hout := Store.fill_congr s.out 0 (8 * s.bcLen.toNat) (f := bcByte (withBuffer m s)) (g := bcByte s)
    fun j _ hj => bcByte_withBuffer hm (by omega)
  simp only [effectDump, hout]

/-- R29: the effect of a command that writes no buffer word sees none at or beyond `BC_LEN`. -/
theorem effectOf_withBuffer {i : Instr} (hq : firstFailure (needsOf i s) = none) (hr : i ≠ .reset)
    (he : i ≠ .extract) (hs : ∀ idx, i ≠ .stblk idx) :
    effectOf i (withBuffer m s) = withBuffer m (effectOf i s) := by
  cases i with
  | loadkt => simp only [effectOf, effectLoadkt]
  | dechdr => simp only [effectOf, effectDechdr]
  | enc => rfl
  | dec => rfl
  | mkkey => rfl
  | derive => exact effectDerive_withBuffer m s
  | extract => exact absurd rfl he
  | classify => exact effectClassify_withBuffer hm hq
  | ldblk idx => exact effectLdblk_withBuffer hm hq
  | stblk idx => exact absurd rfl (hs idx)
  | ckload => exact effectCkload_withBuffer hm hq
  | check => exact effectCheck_withBuffer hm hq
  | dump => exact effectDump_withBuffer hm
  | reset => exact absurd rfl hr

theorem AgreeBelowBcLen.of_kept {x : State} (hbc : x.bc = s.bc) (hlen : x.bcLen = s.bcLen) :
    AgreeBelowBcLen x (withBuffer m x) :=
  ⟨rfl, fun k hk => by rw [hbc]; exact hm k (hlen ▸ hk)⟩

theorem AgreeBelowBcLen.of_stblk (idx : Nat) :
    AgreeBelowBcLen (effectStblk idx s) (effectStblk idx (withBuffer m s)) := by
  refine ⟨rfl, fun k hk => ?_⟩
  simp only [effectStblk_result, Store.lookup_put]
  rw [hm k hk]; rfl

/-- R29: the effect of a command depends on no buffer word at or beyond `BC_LEN`. -/
theorem AgreeBelowBcLen.of_effect {i : Instr} (hq : firstFailure (needsOf i s) = none) :
    AgreeBelowBcLen (effectOf i s) (effectOf i (withBuffer m s)) := by
  cases i with
  | extract => exact .of_extract m s
  | stblk idx => exact .of_stblk hm idx
  | reset => exact ⟨rfl, fun _ _ => rfl⟩
  | _ =>
    rw [effectOf_withBuffer hm hq (by simp) (by simp) (by simp)]
    exact .of_kept hm (by simp [effectOf]) (by simp [effectOf])

end

theorem needsOf_withBuffer (i : Instr) (m : Store 64) (s : State) :
    needsOf i (withBuffer m s) = needsOf i s := by cases i <;> rfl

/-- R29: a command's answer depends on no buffer word at or beyond `BC_LEN`. -/
theorem exec_agreeBelowBcLen {i : Instr} {s t : State} {m : Store 64} (h : exec i s = .next t)
    (hm : ∀ k, k < s.bcLen.toNat → Store.lookup m k = Store.lookup s.bc k) :
    ∃ u, exec i (withBuffer m s) = .next u ∧ AgreeBelowBcLen t u :=
  exec_related h rfl (needsOf_withBuffer i m s) ⟨rfl, hm⟩ (fun _ _ _ => ⟨rfl, hm⟩)
    fun hq => .of_effect hm hq

/-- R29: the effect of a command other than RESET writes no buffer word beyond the old and the new `BC_LEN`. -/
theorem lookup_bc_effectOf_beyond {i : Instr} {s : State} {k : Nat} (hr : i ≠ .reset)
    (hq : firstFailure (needsOf i s) = none) (hk : s.bcLen.toNat ≤ k)
    (hk' : (effectOf i s).bcLen.toNat ≤ k) :
    Store.lookup (effectOf i s).bc k = Store.lookup s.bc k := by
  cases i with
  | extract =>
    simp only [effectOf, effectExtract_result] at hk' ⊢
    exact Store.lookup_fill_out _ _ (by omega)
  | stblk idx =>
    have := idx_lt_bcLen_of_needsStblk hq
    exact Store.lookup_put_other _ _ (by omega)
  | reset => exact absurd rfl hr
  | _ => simp [effectOf]

theorem lookup_bc_exec_beyond {i : Instr} {s t : State} {k : Nat} (h : exec i s = .next t) (hr : i ≠ .reset)
    (hk : s.bcLen.toNat ≤ k) (hk' : t.bcLen.toNat ≤ k) : Store.lookup t.bc k = Store.lookup s.bc k := by
  rcases exec_cases h with ⟨rfl, -⟩ | ⟨-, -, rfl⟩ | ⟨-, -, q, -, rfl⟩ | ⟨-, -, hq, rfl⟩
  · exact absurd rfl hr
  · rfl
  · rfl
  · exact lookup_bc_effectOf_beyond hr hq hk hk'

end Sys2Proof.Machine

open Sys2Proof Sys2Proof.Machine

/-- Settles O38: two states that differ beyond `BC_LEN` alone take one path through the command, and its
effect keeps their agreement. -/
theorem bufferBeyondItsLengthIsNotUsed : Obligations.BufferBeyondItsLengthIsNotUsed :=
  fun _ _ _ _ h hm =>
    ⟨exec_agreeBelowBcLen h hm, fun hr _ hk hk' => lookup_bc_exec_beyond h hr hk hk'⟩
end

section
/-! The invariant of the engine: it holds at reset, and every operation a step is made of keeps it. Settles
O57 and O58. -/

namespace Sys2Proof.Machine

namespace EngineInvariant

/-- The invariant at reset (R42). -/
theorem at_reset : EngineInvariant State.reset where
  kt_canonical := rfl
  bc_canonical := rfl
  bcLen_le_cap := Nat.zero_le _
  out_canonical := rfl
  out_written := fun _ h => absurd h (Nat.not_lt_zero _)
  img_canonical := rfl
  key_canonical := rfl
  fault_consistent := rfl

variable {s : State} (h : EngineInvariant s)
include h

/-! ### What the bus does around an access -/

theorem accept (rest : List HostAction) : EngineInvariant (accept rest s) := { h with }

theorem noteInputs (i : Instr) : EngineInvariant (noteInputs i s) := by
  unfold Machine.noteInputs
  split
  · exact { h with }
  · exact h

theorem returnRead (v : Word) : EngineInvariant (returnRead v s) := { h with }

theorem supplyImage (bytes : List Byte) : EngineInvariant (supplyImage bytes s) :=
  { h with img_canonical := Space.wf_ofBytes bytes }

theorem supplyBlob (bytes : List Byte) : EngineInvariant (supplyBlob bytes s) :=
  { h with key_canonical := Space.wf_ofBytes bytes }

theorem resetEngine : EngineInvariant (resetEngine s) :=
  { at_reset with
    out_canonical := h.out_canonical
    img_canonical := h.img_canonical
    key_canonical := h.key_canonical
    out_written := fun _ ha => absurd ha (Nat.not_lt_zero _) }

/-! ### Register writes (R218) -/

theorem writeReg {r : HostReg} (hr : ∀ i, r = .kt i → i < Config.ktEntries) (v : Word) :
    EngineInvariant (writeReg r v s) := by
  cases r with
  | kt i =>
    exact { h with
      kt_canonical := Store.risingIn_put _ _ _ _ _ h.kt_canonical (Nat.zero_le i) (hr i rfl) }
  | bcLen =>
    simp only [Machine.writeReg]
    split
    · exact { h with bcLen_le_cap := ‹_› }
    · exact h
  | _ => exact { h with }

theorem hostWrite {o : Nat} {r : HostReg} (hr : mappedReg o = some r) (v : Word) :
    EngineInvariant (hostWrite r v s) := by
  unfold Machine.hostWrite
  split
  · exact h.writeReg (fun i hi => (mappedReg_kt (hi ▸ hr)).1) v
  · exact h

/-! ### Faults (R230, R236) -/

theorem raise {k : FaultKind} {info op : Byte}
    (hf : legalFault { code := k.code, info := info, op := op } = true) :
    EngineInvariant (raise k info op s) := { h with fault_consistent := hf }

theorem illegalCommand {w : Word} {t : State} (ht : illegalCommand w s = .next t) : EngineInvariant t := by
  rcases illegalCommand_cases ht with ⟨-, rfl⟩ | ⟨-, rfl⟩
  · exact h
  · exact h.raise rfl

/-! ### The effects that write a store, `BC_LEN` or `OUT_LEN` -/

theorem withTable {m : Store 32} (hm : Store.risingIn 0 Config.ktEntries m = true) :
    EngineInvariant { s with kt := m } := { h with kt_canonical := hm }

theorem effectLoadkt : EngineInvariant (effectLoadkt s) := by
  have hvalid : EngineInvariant { s with valid := { s.valid with kt := true } } := { h with }
  exact hvalid.withTable (Store.risingIn_fill _ _ _ _ _ h.kt_canonical (Nat.le_of_eq (Nat.zero_add _)))

theorem effectDerive : EngineInvariant (effectDerive s) := by
  have hkc : EngineInvariant { s with kc0 := Reg.holds (derivedKc0 s), kc1 := Reg.holds (derivedKc1 s) } :=
    { h with }
  have hfold : Store.risingIn 0 Config.ktEntries
      (foldKeycode s.kt s.draws (derivedKc0 s) (derivedKc1 s)) = true :=
    Store.risingIn_fill _ _ _ _ _ h.kt_canonical (by decide)
  exact hkc.withTable (risingIn_refill _ _ _ _ _ _ hfold (by decide))

theorem effectExtract (hcnt : (getBootCnt s).toNat ≤ Config.bcCap) : EngineInvariant (effectExtract s) :=
  { h with
    bc_canonical := Store.risingIn_fill _ _ _ _ _ h.bc_canonical (by omega)
    bcLen_le_cap := hcnt }

theorem effectStblk {idx : Nat} (hidx : idx < s.bcLen.toNat) : EngineInvariant (effectStblk idx s) :=
  { h with
    bc_canonical := Store.risingIn_put _ _ _ _ _ h.bc_canonical (Nat.zero_le idx)
      (Nat.lt_of_lt_of_le hidx h.bcLen_le_cap) }

theorem effectDump : EngineInvariant (effectDump s) :=
  { h with
    out_canonical := Memory.wf_fill _ _ _ _ h.out_canonical
    out_written := fun a ha => by
      simp only [effectDump_result, BitVec.toNat_ofNat] at ha ⊢
      rw [Store.lookup_fill_in _ _ (Nat.zero_le a) (by omega)]
      rfl }

theorem effectOf {i : Instr} (hq : firstFailure (needsOf i s) = none) : EngineInvariant (effectOf i s) := by
  cases i with
  | loadkt => exact h.effectLoadkt
  | derive => exact h.effectDerive
  | extract => exact h.effectExtract (bootCnt_le_cap_of_needsExtract hq)
  | stblk idx => exact h.effectStblk (idx_lt_bcLen_of_needsStblk hq)
  | dump => exact h.effectDump
  | reset => exact h.resetEngine
  | _ => exact { h with }

end EngineInvariant

/-- Every `require` line of a command names a row of R230. -/
theorem legalFault_of_mem_needsOf {i : Instr} {s : State} {q : Requirement} (hq : q ∈ needsOf i s) :
    legalFault { code := q.kind.code, info := q.info, op := i.opcode } = true := by
  revert q
  cases i <;>
    simp only [needsOf, needsLoadkt, needsDechdr, needsCipher, needsMkkey, needsDerive, needsExtract,
      needsClassify, needsLdblk, needsStblk, needsCkload, needsCheck, needsDump, List.forall_mem_cons,
      List.not_mem_nil, false_implies, implies_true, and_true, Instr.opcode] <;>
    decide

theorem EngineInvariant.exec {i : Instr} {s t : State} (h : EngineInvariant s) (ht : exec i s = .next t) :
    EngineInvariant t := by
  rcases exec_cases ht with ⟨rfl, rfl⟩ | ⟨-, -, rfl⟩ | ⟨-, -, q, hq, rfl⟩ | ⟨-, -, hq, rfl⟩
  · exact h.resetEngine
  · exact h
  · exact h.raise (legalFault_of_mem_needsOf (firstFailure_mem hq).1)
  · exact h.effectOf hq

theorem EngineInvariant.step {s t : State} (h : EngineInvariant s) (ht : step s = .next t) :
    EngineInvariant t := by
  rcases step_cases ht with ⟨-, rfl⟩ | ⟨a, rest, -, hcase⟩
  · exact h
  have ha := h.accept rest
  rcases hcase with ⟨w, i, -, -, hexec⟩ | ⟨w, e, -, -, hill⟩ | ⟨o, r, v, -, -, hmap, -, rfl⟩ |
    ⟨o, r, -, -, -, rfl⟩ | ⟨o, -, rfl⟩ | ⟨-, rfl⟩ | ⟨bytes, -, -, rfl⟩ | ⟨bytes, -, -, rfl⟩
  · exact (ha.noteInputs i).exec hexec
  · exact ha.illegalCommand hill
  · exact ha.hostWrite hmap v
  · exact ha.returnRead _
  · exact ha.returnRead _
  · exact ha.resetEngine
  · exact ha.supplyImage bytes
  · exact ha.supplyBlob bytes

end Sys2Proof.Machine

open Sys2Proof Sys2Proof.Machine

/-- Settles O57. -/
theorem invariantHoldsAtReset : Obligations.InvariantHoldsAtReset := EngineInvariant.at_reset

/-- Settles O58: each of the operations in `step_cases` keeps the invariant. -/
theorem stepKeepsTheInvariant : Obligations.StepKeepsTheInvariant := fun _ _ h ht => h.step ht
end

section
/-! The words the host sees of `STATUS`, `VALID`, `FAULT` (R34 to R36), as numbers and bit by bit. -/

namespace Sys2Proof.Machine

/-- Bits appended below a value (R8). -/
theorem toNat_append_bits {n m : Nat} (x : BitVec n) (y : BitVec m) :
    (x ++ y).toNat = x.toNat * 2 ^ m + y.toNat := by
  rw [BitVec.toNat_append, ← Nat.shiftLeft_add_eq_or_of_lt y.isLt, Nat.shiftLeft_eq]

theorem toNat_append_ofBool {n : Nat} (x : BitVec n) (b : Bool) :
    (x ++ BitVec.ofBool b).toNat = x.toNat * 2 + b.toNat := by
  rw [toNat_append_bits, BitVec.toNat_ofBool, Nat.pow_one]

theorem getLsbD_append_ofBool {n : Nat} (x : BitVec n) (b : Bool) (i : Nat) :
    (x ++ BitVec.ofBool b).getLsbD i = if i = 0 then b else x.getLsbD (i - 1) := by
  rw [BitVec.getLsbD_append]
  cases i <;> simp

/-- The bits of `VALID` by their positions (R35). -/
theorem getLsbD_validWord (v : Valid) (i : Nat) :
    (validWord v).getLsbD i = [v.kt, v.hdr, v.kc, v.bc, v.blk, v.cls, v.ckin, v.ckres].getD i false := by
  simp only [validWord, getLsbD_append_ofBool]
  rcases i with _ | _ | _ | _ | _ | _ | _ | _ | i <;> simp

/-- The bits of `VALID` that a host write replaces (R35). -/
abbrev Valid.hostBits : Valid :=
  { kt := true, hdr := true, kc := true, bc := true, blk := true, cls := false, ckin := true, ckres := false }

/-- The bits of `VALID` that a host write keeps (R35). -/
abbrev Valid.readOnlyBits : Valid := { Valid.none with cls := true, ckres := true }

theorem validWord_hostWrite (v : Valid) (x : Word) :
    validWord (v.hostWrite x) =
      (x &&& validWord Valid.hostBits) ||| (validWord v &&& validWord Valid.readOnlyBits) := by
  refine BitVec.eq_of_getLsbD_eq fun i _ => ?_
  simp only [BitVec.getLsbD_or, BitVec.getLsbD_and, getLsbD_validWord]
  rcases i with _ | _ | _ | _ | _ | _ | _ | _ | i <;> simp [Valid.hostWrite]

end Sys2Proof.Machine

open Sys2Proof Sys2Proof.Machine

/-- Settles O51: each word is an append of its fields, so its number is a sum. -/
theorem statusValidAndFaultFields : Obligations.StatusValidAndFaultFields := by
  intro s
  refine ⟨?_, ?_, ?_⟩
  · simp only [statusWord, toNat_append_ofBool, BitVec.toNat_zero]
    cases s.mode <;> simp <;> omega
  · simp only [validWord, toNat_append_ofBool, BitVec.toNat_zero]
    omega
  · simp only [faultWord, toNat_append_byte, toNat_append_bits (m := 2), toNat_append_bits (m := 6),
      BitVec.toNat_zero]
    omega

/-- Settles O55: the two masks are the words of the bits that a host write replaces and of those it keeps. -/
theorem validWriteKeepsTheReadOnlyBits : Obligations.ValidWriteKeepsTheReadOnlyBits := by
  intro v x
  have hreplaced : validWord Valid.hostBits = 0x5F#32 := by decide
  have hkept : validWord Valid.readOnlyBits = 0xA0#32 := by decide
  rw [validWord_hostWrite, hreplaced, hkept]

/-- Settles O12: the fields of `State.reset`, one by one. -/
theorem resetStateIsAsTheTableSays : Obligations.ResetStateIsAsTheTableSays := by
  refine ⟨?_, ?_⟩
  · unfold controlAtReset; decide
  · simp [dataUnspecified, State.reset]

end

section
/-! Who writes what (10_state.md): the flags, the registers and the stores, the valid bits, the inputs; and that
no command reads a flag. -/

namespace Sys2Proof.Machine

/-- In mode `FAULTED` every command but RESET is ignored (R38). -/
theorem exec_faulted {i : Instr} {s : State} (hm : s.mode = .faulted) (hr : i ≠ .reset) :
    exec i s = .next s := by
  rw [exec_eq_command i s hr]; exact command_faulted hm

/-- No command writes an input space (R21, R60). -/
theorem exec_inputs {i : Instr} {s t : State} (h : exec i s = .next t) : t.img = s.img ∧ t.key = s.key := by
  obtain rfl | ⟨k, info, rfl⟩ | rfl := exec_outcomes h
  · simp
  · simp
  · cases i <;> simp [effectOf]

/-! ### The valid bits (R35) -/

/-- The bits set in both. -/
def Valid.inter (u v : Valid) : Valid where
  kt := u.kt && v.kt
  hdr := u.hdr && v.hdr
  kc := u.kc && v.kc
  bc := u.bc && v.bc
  blk := u.blk && v.blk
  cls := u.cls && v.cls
  ckin := u.ckin && v.ckin
  ckres := u.ckres && v.ckres

theorem validWord_reset : validWord State.reset.valid = 0#32 := by decide

theorem validWord_inter (u v : Valid) : validWord (u.inter v) = validWord u &&& validWord v := by
  refine BitVec.eq_of_getLsbD_eq fun i _ => ?_
  rw [BitVec.getLsbD_and, getLsbD_validWord, getLsbD_validWord, getLsbD_validWord]
  rcases i with _ | _ | _ | _ | _ | _ | _ | _ | i <;> rfl

/-- The effect of a command other than RESET clears no valid bit. -/
theorem valid_effectOf_inter {i : Instr} (s : State) (hr : i ≠ .reset) :
    (effectOf i s).valid.inter s.valid = s.valid := by
  cases i with
  | reset => exact absurd rfl hr
  | _ => simp [effectOf, Valid.inter]

theorem exec_valid_inter {i : Instr} {s t : State} (h : exec i s = .next t) (hr : i ≠ .reset) :
    t.valid.inter s.valid = s.valid := by
  obtain rfl | ⟨k, info, rfl⟩ | rfl := exec_outcomes h
  · simp [Valid.inter]
  · simp [Valid.inter]
  · exact valid_effectOf_inter s hr

/-! ### No command reads a flag (R26, R97) -/

/-- The state with other flags. -/
abbrev withFlags (p e m : Bool) (s : State) : State :=
  { s with securePresent := p, secureEncrypted := e, crcMatch := m }

/-- The states `t` and `u` differ in the flags alone. -/
def AgreeButFlags (t u : State) : Prop :=
  withFlags t.securePresent t.secureEncrypted t.crcMatch u = t

theorem needsOf_withFlags (i : Instr) (p e m : Bool) (s : State) :
    needsOf i (withFlags p e m s) = needsOf i s := by cases i <;> rfl

theorem effectDerive_withFlags (p e m : Bool) (s : State) :
    effectDerive (withFlags p e m s) = withFlags p e m (effectDerive s) := by
  simp only [effectDerive, derivedKc0_congr (s := s) (s' := withFlags p e m s) rfl rfl rfl,
    derivedKc1_congr (s := s) (s' := withFlags p e m s) rfl rfl rfl]

theorem AgreeButFlags.of_withFlags (p e m : Bool) (s : State) : AgreeButFlags s (withFlags p e m s) := rfl

theorem AgreeButFlags.of_effect (i : Instr) (p e m : Bool) (s : State) :
    AgreeButFlags (effectOf i s) (effectOf i (withFlags p e m s)) := by
  cases i with
  | loadkt => simp only [AgreeButFlags, effectOf, effectLoadkt]
  | dechdr => simp only [AgreeButFlags, effectOf, effectDechdr]
  | derive =>
    have h : effectOf .derive (withFlags p e m s) = withFlags p e m (effectOf .derive s) :=
      effectDerive_withFlags p e m s
    rw [h]
    exact .of_withFlags p e m _
  | extract => simp only [AgreeButFlags, effectOf, effectExtract]; rfl
  | _ => rfl

/-- With other flags a command answers the same state up to the flags. -/
theorem exec_agreeButFlags {i : Instr} {s t : State} (p e m : Bool) (h : exec i s = .next t) :
    ∃ u, exec i (withFlags p e m s) = .next u ∧ AgreeButFlags t u :=
  exec_related h rfl (needsOf_withFlags i p e m s) rfl (fun _ _ _ => rfl) fun _ => .of_effect i p e m s

end Sys2Proof.Machine

open Sys2Proof Sys2Proof.Machine

/-- Settles O42. -/
theorem faultedModeIgnoresEveryOtherCommand : Obligations.FaultedModeIgnoresEveryOtherCommand :=
  fun _ _ hm hr => exec_faulted hm hr

/-- Settles O45: the three flags are no part of fault entry or of another command's effect. -/
theorem flagsHaveTheirWriters : Obligations.FlagsHaveTheirWriters := by
  intro i s t h hr
  obtain rfl | ⟨k, info, rfl⟩ | rfl := exec_outcomes h
  · simp
  · simp
  · cases i with
    | reset => exact absurd rfl hr
    | _ => simp [effectOf]

/-- Settles O46: the requirements read no flag, and the effects write at most flags that depend on none. -/
theorem noCommandReadsAFlag : Obligations.NoCommandReadsAFlag :=
  fun _ _ _ p e m h => exec_agreeButFlags p e m h

/-- Settles O47: the frame of each effect, one command after the other. -/
theorem registersHaveTheirWriters : Obligations.RegistersHaveTheirWriters := by
  intro i s t h hr
  obtain rfl | ⟨k, info, rfl⟩ | rfl := exec_outcomes h
  · simp
  · simp
  · cases i with
    | reset => exact absurd rfl hr
    | _ => simp [effectOf]

/-- Settles O48: RESET clears `VALID`, and every other effect sets one bit or two and clears none. -/
theorem onlyResetClearsAValidBit : Obligations.OnlyResetClearsAValidBit := by
  intro i s t h
  refine ⟨fun hr => ?_, fun hr => ?_⟩
  · subst hr
    obtain rfl : resetEngine s = t := by simpa using h
    exact validWord_reset
  · rw [← validWord_inter, exec_valid_inter h hr]

end

section
/-! What single steps answer; reads of cells that nothing has written (R41); entry into mode `FAULTED`; the
inputs and the marks on them over a run (R72, R77, R78). -/

namespace Sys2Proof.Machine

/-! ### The step of one host action -/

theorem step_write_cmd {s : State} {w : Word} {rest : List HostAction}
    (hp : s.pending = .write 32 0x000 w :: rest) : step s = runCommand w (accept rest s) := by
  simp [step, hp, serve, resolveAccess, mappedReg]

theorem step_command {s : State} {w : Word} {rest : List HostAction} {i : Instr}
    (hp : s.pending = .write 32 0x000 w :: rest) (hd : decodeWord w = .ok i) :
    step s = exec i (noteInputs i (accept rest s)) := by
  simp [step_write_cmd hp, runCommand, hd]

theorem step_read {s : State} {o : Nat} {r : HostReg} {rest : List HostAction}
    (hp : s.pending = .read 32 o :: rest) (ho : o % 4 = 0) (hr : mappedReg o = some r) :
    step s = .next (returnRead (readReg r (accept rest s)) (accept rest s)) := by
  simp [step, hp, serve, resolveAccess_ok.mpr ⟨rfl, ho, hr⟩]

/-! ### Reads of what nothing has written (R41) -/

theorem Reg.read_of_not_written {w : Nat} {r : Reg w} {f : Block} (h : r.written = false) :
    r.read f = f.setWidth w := by simp [Reg.read, h]

theorem Reg.read_of_written {w : Nat} {r : Reg w} {f : Block} (h : r.written = true) :
    r.read f = r.value := by simp [Reg.read, h]

theorem getKt_of_not_written {s : State} {i : Nat} (h : Store.lookup s.kt i = none) :
    getKt s i = (Config.anyValue s.draws 0 (.kt i)).setWidth 32 := by simp [getKt, ktView, h]

theorem getBc_of_not_written {s : State} {k : Nat} (h : Store.lookup s.bc k = none) :
    getBc s k = Config.anyValue s.draws 0 (.bc k) := by simp [getBc, free, h]

/-- A host read of `BLK_LO` advances the draw, and leaves the register as unwritten as it was. -/
theorem step_read_unwritten_blkLo {s : State} {rest : List HostAction} (hw : s.blkLo.written = false)
    (hp : s.pending = .read 32 0x010 :: rest) :
    ∃ t, step s = .next t ∧ t.blkLo.written = false ∧ t.pending = rest ∧ t.draws = s.draws + 1 ∧
      t.readData = (Config.anyValue (s.draws + 1) 0 .blkLo).setWidth 32 :=
  ⟨_, step_read hp rfl rfl, hw, rfl, rfl, Reg.read_of_not_written hw⟩

/-! ### What the next action is -/

theorem resets_iff {a : HostAction} :
    resets a = true ↔ a = .hardwareReset ∨ a = .write 32 0x000 0x000000FF#32 := by
  cases a <;> simp [resets]

theorem servesReset_iff {s : State} {a : HostAction} {rest : List HostAction} (hp : s.pending = a :: rest) :
    servesReset s ↔ resets a = true := by
  simp [servesReset, hp, resets_iff, exists_or]

theorem formatN_ok_iff {w : Word} {i j : Instr} : formatN w i = .ok j ↔ upperField w = 0#24 ∧ i = j := by
  unfold formatN
  split <;> simp [*]

theorem word_toNat_fields (w : Word) : w.toNat = (upperField w).toNat * 256 + (opField w).toNat := by
  simp only [upperField, opField, BitVec.extractLsb'_toNat, Nat.shiftRight_eq_div_pow]
  omega

/-- R95: RESET has one word. -/
theorem decodeWord_eq_reset_iff {w : Word} : decodeWord w = .ok .reset ↔ w = 0x000000FF#32 := by
  refine ⟨fun h => ?_, by rintro rfl; rfl⟩
  unfold decodeWord at h
  split at h <;> simp only [formatN_ok_iff, Except.ok.injEq, reduceCtorEq, and_false, and_true] at h
  next hop =>
    refine BitVec.eq_of_toNat_eq ?_
    rw [word_toNat_fields, h, hop]
    rfl

theorem not_servesReset_of_servesCommand {i : Instr} {s : State} (hi : servesCommand i s) (hr : i ≠ .reset) :
    ¬servesReset s := by
  obtain ⟨w, rest, hp, hd⟩ := hi
  rw [servesReset_iff hp, resets_iff]
  rintro (h | h)
  · cases h
  · cases h
    rw [decodeWord_eq_reset_iff.mpr rfl] at hd
    exact hr (Except.ok.inj hd).symm

theorem readsImg_iff {i : Instr} : readsImg i = true ↔ i = .dechdr ∨ i = .extract := by
  cases i <;> simp [readsImg]

theorem readsKey_iff {i : Instr} : readsKey i = true ↔ i = .loadkt := by
  cases i <;> simp [readsKey]

/-! ### The inputs over a step (R72, R77, R78) -/

/-- A step changes an input by an allowed supply alone. -/
theorem step_inputs {s t : State} (h : step s = .next t) :
    (t.img = s.img ∨ supplyAllowed s.imgUsed s.img t.img (accept t.pending s) = true) ∧
      (t.key = s.key ∨ supplyAllowed s.keyUsed s.key t.key (accept t.pending s) = true) := by
  rcases step_cases h with ⟨-, rfl⟩ | ⟨a, rest, -, hcase⟩
  · simp
  rcases hcase with ⟨w, i, -, -, hexec⟩ | ⟨w, e, -, -, hill⟩ | ⟨o, r, v, -, -, -, -, rfl⟩ |
    ⟨o, r, -, -, -, rfl⟩ | ⟨o, -, rfl⟩ | ⟨-, rfl⟩ | ⟨bytes, -, hallowed, rfl⟩ | ⟨bytes, -, hallowed, rfl⟩
  · obtain ⟨himg, hkey⟩ := exec_inputs hexec
    simp [himg, hkey]
  · obtain ⟨-, rfl⟩ | ⟨-, rfl⟩ := illegalCommand_cases hill <;> simp
  · simp
  · simp
  · simp
  · simp
  · exact ⟨.inr hallowed, .inl rfl⟩
  · exact ⟨.inl rfl, .inr hallowed⟩

/-- A used input changes after the end of the run alone. -/
theorem run_ended_of_supplyAllowed {used : Bool} {old new : Space} {rest : List HostAction} {s : State}
    (hused : used = true) (hchange : new ≠ old)
    (h : new = old ∨ supplyAllowed used old new (accept rest s) = true) :
    s.mode = .faulted ∨ hostIsDone rest := by
  have hallowed := (supplyAllowed_accept_iff ..).mp (h.resolve_left hchange)
  simpa [hused, hchange.symm] using hallowed

/-- Once the host is done, a step that is no reset moves nothing of the engine. -/
theorem step_of_hostIsDone {s t : State} (h : step s = .next t) (hdone : hostIsDone s.pending)
    (hreset : ¬servesReset s) :
    hostIsDone t.pending ∧ t = { s with
      img := t.img, key := t.key, pending := t.pending, readData := t.readData, draws := t.draws } := by
  rcases step_cases h with ⟨-, rfl⟩ | ⟨a, rest, hp, hcase⟩
  · exact ⟨hdone, rfl⟩
  rw [servesReset_iff hp] at hreset
  rw [hp, hostIsDone_cons] at hdone
  obtain ⟨hoff, hrest⟩ := hdone.resolve_left hreset
  rcases hcase with ⟨w, i, rfl, -, -⟩ | ⟨w, e, rfl, -, -⟩ | ⟨o, r, v, rfl, -, -, -, -⟩ |
    ⟨o, r, rfl, -, -, -⟩ | ⟨o, -, rfl⟩ | ⟨rfl, -⟩ | ⟨bytes, -, -, rfl⟩ | ⟨bytes, -, -, rfl⟩
  · simp [accessesEngine] at hoff
  · simp [accessesEngine] at hoff
  · simp [accessesEngine] at hoff
  · simp [accessesEngine] at hoff
  · exact ⟨hrest, rfl⟩
  · exact absurd rfl hreset
  · exact ⟨hrest, rfl⟩
  · exact ⟨hrest, rfl⟩

/-! ### The marks on used inputs -/

/-- The marks after a command other than RESET. -/
theorem step_marks_of_servesCommand {i : Instr} {s t : State} (hi : servesCommand i s) (hr : i ≠ .reset)
    (h : step s = .next t) :
    t.imgUsed = (s.imgUsed || decide (s.mode = .idle) && readsImg i) ∧
      t.keyUsed = (s.keyUsed || decide (s.mode = .idle) && readsKey i) := by
  obtain ⟨w, rest, hp, hd⟩ := hi
  rw [step_command hp hd] at h
  obtain ⟨himg, hkey⟩ := exec_marks h hr
  exact ⟨himg.trans (noteInputs_imgUsed i _), hkey.trans (noteInputs_keyUsed i _)⟩

/-- What moves the marks: a reset clears them, a command sets those of the inputs it reads, and nothing else. -/
theorem step_marks {s t : State} (h : step s = .next t) :
    (servesReset s ∧ t.imgUsed = false ∧ t.keyUsed = false) ∨
    (∃ i, i ≠ .reset ∧ servesCommand i s) ∨
    (¬servesReset s ∧ t.imgUsed = s.imgUsed ∧ t.keyUsed = s.keyUsed) := by
  rcases step_cases h with ⟨hp, rfl⟩ | ⟨a, rest, hp, hcase⟩
  · exact .inr (.inr ⟨by simp [servesReset, hp], rfl, rfl⟩)
  rw [servesReset_iff hp, resets_iff]
  rcases hcase with ⟨w, i, rfl, hd, hexec⟩ | ⟨w, e, rfl, hd, hill⟩ | ⟨o, r, v, rfl, -, hmap, hcmd, rfl⟩ |
    ⟨o, r, rfl, -, -, rfl⟩ | ⟨o, rfl, rfl⟩ | ⟨rfl, rfl⟩ | ⟨bytes, rfl, -, rfl⟩ | ⟨bytes, rfl, -, rfl⟩
  · by_cases hr : i = .reset
    · subst hr
      cases hexec
      exact .inl ⟨.inr (by rw [decodeWord_eq_reset_iff.mp hd]), rfl, rfl⟩
    · exact .inr (.inl ⟨i, hr, w, rest, hp, hd⟩)
  · refine .inr (.inr ⟨?_, ?_⟩)
    · rintro (h | h)
      · cases h
      · cases h; cases hd
    · obtain ⟨-, rfl⟩ | ⟨-, rfl⟩ := illegalCommand_cases hill <;> simp
  · refine .inr (.inr ⟨?_, by simp⟩)
    rintro (h | h)
    · cases h
    · cases h; exact hcmd (by simpa [mappedReg] using hmap.symm)
  · exact .inr (.inr (by simp))
  · exact .inr (.inr (by simp))
  · exact .inl ⟨.inl rfl, rfl, rfl⟩
  · exact .inr (.inr (by simp))
  · exact .inr (.inr (by simp))

/-- A mark that was set stays set up to a reset. -/
theorem step_keeps_marks {s t : State} (h : step s = .next t) (hreset : ¬servesReset s) :
    (s.imgUsed = true → t.imgUsed = true) ∧ (s.keyUsed = true → t.keyUsed = true) := by
  obtain ⟨hr, -⟩ | ⟨i, hr, hi⟩ | ⟨-, himg, hkey⟩ := step_marks h
  · exact absurd hr hreset
  · obtain ⟨himg, hkey⟩ := step_marks_of_servesCommand hi hr h
    simp +contextual [himg, hkey]
  · simp [himg, hkey]

/-- A mark comes from before, or from a command in mode `IDLE` that reads the input. -/
theorem step_sets_marks {s t : State} (h : step s = .next t) :
    (t.imgUsed = true →
      s.imgUsed = true ∨ (s.mode = .idle ∧ ∃ i, readsImg i = true ∧ servesCommand i s)) ∧
    (t.keyUsed = true →
      s.keyUsed = true ∨ (s.mode = .idle ∧ ∃ i, readsKey i = true ∧ servesCommand i s)) := by
  obtain ⟨-, himg, hkey⟩ | ⟨i, hr, hi⟩ | ⟨-, himg, hkey⟩ := step_marks h
  · simp [himg, hkey]
  · obtain ⟨himg, hkey⟩ := step_marks_of_servesCommand hi hr h
    simp only [himg, hkey, Bool.or_eq_true, Bool.and_eq_true, decide_eq_true_eq]
    exact ⟨Or.imp_right fun hi' => ⟨hi'.1, i, hi'.2, hi⟩, Or.imp_right fun hi' => ⟨hi'.1, i, hi'.2, hi⟩⟩
  · simp +contextual [himg, hkey]

end Sys2Proof.Machine

open Sys2Proof Sys2Proof.Machine

/-- Settles O7. -/
theorem stepRunsTheDecodedCommand : Obligations.StepRunsTheDecodedCommand :=
  fun _ _ _ _ hp hd => step_command hp hd

/-- Settles O44: of all that a step can do, only what follows a write to `CMD` moves the mode to `FAULTED`. -/
theorem onlyACommandWordEntersTheFaultedMode : Obligations.OnlyACommandWordEntersTheFaultedMode := by
  intro s t hidle h hfaulted
  rcases step_cases h with ⟨-, rfl⟩ | ⟨a, rest, hp, hcase⟩
  · simp [hidle] at hfaulted
  rcases hcase with ⟨w, i, rfl, -, -⟩ | ⟨w, e, rfl, -, -⟩ | ⟨o, r, v, -, -, -, -, rfl⟩ |
    ⟨o, r, -, -, -, rfl⟩ | ⟨o, -, rfl⟩ | ⟨-, rfl⟩ | ⟨bytes, -, -, rfl⟩ | ⟨bytes, -, -, rfl⟩
  · exact ⟨w, rest, hp⟩
  · exact ⟨w, rest, hp⟩
  · simp [hidle] at hfaulted
  · simp [hidle] at hfaulted
  · simp [hidle] at hfaulted
  · simp [State.reset] at hfaulted
  · simp [hidle] at hfaulted
  · simp [hidle] at hfaulted

/-- Settles O53: a read looks at the mark `written` first, and each access has its own draw. -/
theorem unwrittenReadsDrawAfresh : Obligations.UnwrittenReadsDrawAfresh := by
  refine ⟨fun s => ⟨Reg.read_of_not_written, Reg.read_of_not_written, Reg.read_of_not_written,
    Reg.read_of_not_written, Reg.read_of_not_written, Reg.read_of_not_written, Reg.read_of_not_written,
    Reg.read_of_not_written, Reg.read_of_not_written, Reg.read_of_not_written, Reg.read_of_not_written,
    Reg.read_of_not_written, fun _ => getKt_of_not_written, fun _ => getBc_of_not_written,
    Reg.read_of_written⟩, fun s rest hw hp => ?_⟩
  obtain ⟨t, ht, hwt, hpt, hdraws, hread⟩ := step_read_unwritten_blkLo hw hp
  obtain ⟨u, hu, -, -, -, hread'⟩ := step_read_unwritten_blkLo hwt hpt
  exact ⟨t, u, ht, hu, hread, by rw [hread', hdraws]⟩

/-- Settles O49: an allowed supply is the only change of an input, and `step_marks` says what moves a mark. -/
theorem inputsAreConstantForARun : Obligations.InputsAreConstantForARun := by
  refine ⟨fun _ _ _ => exec_inputs, fun s t h => ?_⟩
  obtain ⟨himg, hkey⟩ := step_inputs h
  obtain ⟨hsetImg, hsetKey⟩ := step_sets_marks h
  refine ⟨fun hused hchange => run_ended_of_supplyAllowed hused hchange himg,
    fun hused hchange => run_ended_of_supplyAllowed hused hchange hkey, step_of_hostIsDone h, ?_, ?_,
    step_keeps_marks h, ?_, fun ht => ?_, fun ht => ?_⟩
  · intro hidle hi
    simp [(step_marks_of_servesCommand hi (by simp) h).2, hidle, readsKey]
  · rintro hidle (hi | hi)
    · simp [(step_marks_of_servesCommand hi (by simp) h).1, hidle, readsImg]
    · simp [(step_marks_of_servesCommand hi (by simp) h).1, hidle, readsImg]
  · intro hreset
    obtain ⟨-, hcleared⟩ | ⟨i, hr, hi⟩ | ⟨hno, -⟩ := step_marks h
    · exact hcleared
    · exact absurd hreset (not_servesReset_of_servesCommand hi hr)
    · exact absurd hreset hno
  · refine (hsetImg ht).imp_right fun ⟨hidle, i, hreads, hi⟩ => ⟨hidle, ?_⟩
    obtain rfl | rfl := readsImg_iff.mp hreads
    · exact .inl hi
    · exact .inr hi
  · refine (hsetKey ht).imp_right fun ⟨hidle, i, hreads, hi⟩ => ⟨hidle, ?_⟩
    obtain rfl := readsKey_iff.mp hreads
    exact hi

end

section
/-! Which host actions a step answers and which it refuses (R65, R220, R273). Settles O10. -/

namespace Sys2Proof.Machine

/-! ### Every command is answered (R273) -/

theorem exec_answers (i : Instr) (s : State) : ∃ t, exec i s = .next t := by
  by_cases hr : i = .reset
  · exact ⟨_, hr ▸ exec_reset s⟩
  · rw [exec_eq_command i s hr]
    obtain ⟨-, h⟩ | ⟨-, q, -, h⟩ | ⟨-, -, h⟩ := command_cases (rfl : command _ _ _ s = _)
    · exact ⟨_, h⟩
    · exact ⟨_, h⟩
    · exact ⟨_, h⟩

theorem illegalCommand_answers (w : Word) (s : State) : ∃ t, illegalCommand w s = .next t := by
  unfold illegalCommand
  split
  · exact ⟨_, rfl⟩
  · exact ⟨_, rfl⟩

theorem runCommand_answers (w : Word) (s : State) : ∃ t, runCommand w s = .next t := by
  unfold runCommand
  split
  · exact exec_answers _ _
  · exact illegalCommand_answers _ _

/-! ### A step refuses what `serve` refuses -/

theorem step_refused {s : State} {a : HostAction} {rest : List HostAction} {e : Refusal}
    (hp : s.pending = a :: rest) (h : serve a (accept rest s) = .refuse e) : step s = .refused e := by
  simp [step, hp, h]

theorem step_answers {s : State} {a : HostAction} {rest : List HostAction} (hp : s.pending = a :: rest)
    (h : ¬∃ e, serve a (accept rest s) = .refuse e) : ∃ t, step s = .next t := by
  cases hserve : serve a (accept rest s) with
  | command w t => simpa [step, hp, hserve] using runCommand_answers w t
  | done t => exact ⟨t, by simp [step, hp, hserve]⟩
  | refuse e => exact absurd ⟨e, hserve⟩ h

/-! ### `serve` refuses what is not accepted -/

/-- R65, R220: a register access is resolved when it is of 32 bits, aligned and mapped. -/
theorem isOk_resolveAccess (width offset : Nat) :
    (resolveAccess width offset).isOk =
      (decide (width = 32) && decide (offset % 4 = 0) && (mappedReg offset).isSome) := by
  by_cases hw : width = 32
  · by_cases ho : offset % 4 = 0
    · cases hr : mappedReg offset <;> simp [resolveAccess, hw, ho, hr, Except.isOk, Except.toBool]
    · simp [resolveAccess, hw, ho, Except.isOk, Except.toBool]
  · simp [resolveAccess, hw, Except.isOk, Except.toBool]

theorem serve_read_refuses_iff (width offset : Nat) (s : State) :
    (∃ e, serve (.read width offset) s = .refuse e) ↔ (resolveAccess width offset).isOk = false := by
  cases hr : resolveAccess width offset with
  | ok r => simp [serve, hr, Except.isOk, Except.toBool]
  | error e => simp [serve, hr, Except.isOk, Except.toBool]

theorem serve_write_refuses_iff (width offset : Nat) (v : Word) (s : State) :
    (∃ e, serve (.write width offset v) s = .refuse e) ↔ (resolveAccess width offset).isOk = false := by
  cases hr : resolveAccess width offset with
  | ok r => cases r <;> simp [serve, hr, Except.isOk, Except.toBool]
  | error e => simp [serve, hr, Except.isOk, Except.toBool]

theorem exists_ite_refuse_iff {allowed : Bool} {t : State} {r : Refusal} :
    (∃ e, (if allowed then Served.done t else .refuse r) = .refuse e) ↔ allowed = false := by
  cases allowed <;> simp

/-- `accepted` says which actions are served, with `rest` to come after them. -/
theorem serve_refuses_iff (s : State) (rest : List HostAction) (a : HostAction) :
    (∃ e, serve a (accept rest s) = .refuse e) ↔ accepted s rest a = false := by
  cases a with
  | read width offset => rw [serve_read_refuses_iff, isOk_resolveAccess]; rfl
  | write width offset v => rw [serve_write_refuses_iff, isOk_resolveAccess]; rfl
  | readOut o => simp [serve, accepted]
  | hardwareReset => simp [serve, accepted]
  | supplyImg bytes => exact exists_ite_refuse_iff
  | supplyKey bytes => exact exists_ite_refuse_iff

end Sys2Proof.Machine

open Sys2Proof Sys2Proof.Machine

/-- Settles O10: `serve` refuses exactly what is not accepted, and a step answers all that `serve` takes. -/
theorem stepAnswersExactlyTheAcceptedAccesses : Obligations.StepAnswersExactlyTheAcceptedAccesses := by
  intro s a rest hp
  refine ⟨fun hacc => step_answers hp ?_, fun hacc => ?_⟩
  · rw [serve_refuses_iff, hacc]
    simp
  · obtain ⟨e, he⟩ := (serve_refuses_iff s rest a).mpr hacc
    exact ⟨e, step_refused hp he⟩
end

section
/-! What a register write leaves to be read, of the same register and of every other (R67, R218). Settles O56. -/

namespace Sys2Proof.Machine

/-! ### The same register -/

/-- The registers that hold the whole of what the host writes to them, the table and `BC_LEN` apart. -/
theorem readReg_writeReg_same (v : Word) (s : State) : ∀ r ∈ [HostReg.blkLo, .blkHi, .kc0, .kc1, .kc2,
    .gamecode, .bootOff, .bootCnt, .title0, .title1, .title2, .ckOff, .ckLen],
    readReg r (writeReg r v s) = v := by
  simp only [List.forall_mem_cons, List.not_mem_nil, false_implies, implies_true, and_true]
  and_intros <;> rfl

theorem readReg_writeReg_kt (i : Nat) (v : Word) (s : State) :
    readReg (.kt i) (writeReg (.kt i) v s) = v := by simp [readReg, writeReg, getKt, ktView]

theorem toNat_readReg_writeReg_ckEmb (v : Word) (s : State) :
    (readReg .ckEmb (writeReg .ckEmb v s)).toNat = v.toNat % 65536 := by
  simp only [readReg, writeReg, getCkEmb, Reg.read_holds, BitVec.toNat_setWidth]
  omega

theorem readReg_writeReg_bcLen {v : Word} (s : State) (h : v.toNat ≤ Config.bcCap) :
    readReg .bcLen (writeReg .bcLen v s) = v := by simp [readReg, writeReg, h]

/-! ### Another register -/

theorem getKt_put_other {i j : Nat} (v : Word) (s : State) (h : j ≠ i) :
    getKt { s with kt := Store.put s.kt i v } j = getKt s j := by
  simp [getKt, ktView, Store.lookup_put_other _ v h]

/-- No other register reads the cell that a write of `BC_LEN` reaches. -/
theorem readReg_withBcLen {q : HostReg} (v : Word) (s : State) (h : q ≠ .bcLen) :
    readReg q { s with bcLen := v } = readReg q s := by
  cases q with
  | bcLen => exact absurd rfl h
  | _ => rfl

/-- Two registers are two fields of the state, so that each pair is settled by definition, or they are two
entries of the table. -/
theorem readReg_writeReg_other {q r : HostReg} (v : Word) (s : State) (h : q ≠ r) :
    readReg q (writeReg r v s) = readReg q s := by
  cases r with
  | kt i =>
    cases q with
    | kt j => exact getKt_put_other v s fun hj => h (congrArg _ hj)
    | _ => rfl
  | bcLen =>
    simp only [writeReg]
    split
    · exact readReg_withBcLen v s h
    · rfl
  | _ => cases q <;> first | rfl | exact absurd rfl h

end Sys2Proof.Machine

open Sys2Proof Sys2Proof.Machine

/-- Settles O56. -/
theorem hostWriteReadsBackAndTouchesNoOther : Obligations.HostWriteReadsBackAndTouchesNoOther :=
  fun s r v => ⟨readReg_writeReg_same v s r, fun i => readReg_writeReg_kt i v s,
    toNat_readReg_writeReg_ckEmb v s, readReg_writeReg_bcLen s, fun _ => readReg_writeReg_other v s⟩
end

section
/-! The host's reads of `OUT` (R77, R178, U19). Settles O59. -/

namespace Sys2Proof.Machine

/-! ### The byte that the host finds -/

theorem outByte_of_lookup {s : State} {a : Nat} {v : Byte} (ha : a < s.outLen.toNat)
    (h : Store.lookup s.out a = some v) : outByte s a = v := by simp [outByte, ha, h]

/-- Beyond `OUT_LEN`, and where nothing has written, the byte is free (U19). -/
theorem outByte_free {s : State} {a : Nat} (h : s.outLen.toNat ≤ a ∨ Store.lookup s.out a = none) :
    outByte s a = (Config.anyValue s.draws 0 (.out a)).setWidth 8 := by
  obtain hbeyond | hnone := h
  · simp [outByte, free, Nat.not_lt.mpr hbeyond]
  · simp [outByte, free, hnone]

theorem step_readOut {s : State} {a : Nat} {rest : List HostAction} (hp : s.pending = .readOut a :: rest) :
    step s = .next (returnRead ((outByte (accept rest s) a).setWidth 32) (accept rest s)) := by
  simp [step, hp, serve]

/-- The word that the bus hands over stands for the number of the byte. -/
theorem toNat_setWidth_byte (b : Byte) : (b.setWidth 32).toNat = b.toNat :=
  BitVec.toNat_setWidth_of_le (by decide)

/-! ### DUMP (R178) -/

theorem exec_dump {s : State} (hm : s.mode = .idle) (hbc : s.valid.bc = true) :
    exec .dump s = .next (effectDump s) :=
  exec_succeeds (by simp) hm (by simp [needsOf, needsDump, hbc])

/-- `8 * BC_LEN` fits `OUT_LEN`, since `BC_CAP` is at most 2^24 (R6). -/
theorem toNat_outLen_effectDump {s : State} (hcap : s.bcLen.toNat ≤ Config.bcCap) :
    (effectDump s).outLen.toNat = 8 * s.bcLen.toNat := by
  obtain ⟨-, hbound⟩ := bcCap_bounds
  rw [(effectDump_result s).2, BitVec.toNat_ofNat, Nat.mod_eq_of_lt (by omega)]

theorem lookup_out_effectDump {s : State} {a : Nat} (ha : a < 8 * s.bcLen.toNat) :
    Store.lookup (effectDump s).out a = some (bcByte s a) := by
  rw [(effectDump_result s).1, Store.lookup_fill_in _ _ (Nat.zero_le a) (by omega)]

theorem toNat_bcByte (s : State) (j : Nat) :
    (bcByte s j).toNat = (getBc s (j / 8)).toNat / 2 ^ (8 * (j % 8)) % 256 := blockByte_toNat _ _

end Sys2Proof.Machine

open Sys2Proof Sys2Proof.Machine

/-- Settles O59: `step_readOut` with the two cases of `outByte`, and after a DUMP with what it wrote. -/
theorem hostReadsOfOutReturnTheDump : Obligations.HostReadsOfOutReturnTheDump := by
  refine ⟨fun s rest a hp => ?_, fun s rest a hm hbc hcap ha => ?_⟩
  · have hwritten : ∀ v, a < s.outLen.toNat → Store.lookup s.out a = some v →
        ((outByte (accept rest s) a).setWidth 32).toNat = v.toNat := fun v ha hv => by
      rw [toNat_setWidth_byte, outByte_of_lookup (s := accept rest s) ha hv]
    refine ⟨_, step_readOut hp, rfl, hwritten, fun hinv ha => ?_, fun hfree => ?_⟩
    · obtain ⟨v, hv⟩ := Option.isSome_iff_exists.mp (hinv.out_written a ha)
      exact ⟨v, hv, hwritten v ha hv⟩
    · rw [returnRead_readData, toNat_setWidth_byte, outByte_free (s := accept rest s) hfree,
        BitVec.toNat_setWidth, accept_draws]
  · refine ⟨_, _, exec_dump hm hbc, step_readOut rfl, ?_⟩
    have hbelow : a < (effectDump s).outLen.toNat := by rwa [toNat_outLen_effectDump hcap]
    rw [returnRead_readData, toNat_setWidth_byte, ← toNat_bcByte]
    exact congrArg BitVec.toNat (outByte_of_lookup hbelow (lookup_out_effectDump ha))
end

section
/-! The command words (R90 to R95): the decoder and the encoder are inverse to each other on the legal words
and the well-formed commands, and what a step answers on a legal and on an illegal word. -/

namespace Sys2Proof.Machine

/-! ### The two fields of a word (R90) -/

theorem upperField_append_opField (w : Word) : upperField w ++ opField w = w :=
  BitVec.eq_of_toNat_eq <| by rw [toNat_append_byte, word_toNat_fields, Nat.mul_comm]

theorem opField_encode (i : Instr) : opField (encode i) = i.opcode := BitVec.extractLsb'_append_eq_right

theorem upperField_encode (i : Instr) : upperField (encode i) = i.upperBits :=
  BitVec.extractLsb'_append_eq_left

/-- A word is the encoding of a command when its fields are the command's. -/
theorem encode_eq_iff {i : Instr} {w : Word} :
    encode i = w ↔ opField w = i.opcode ∧ upperField w = i.upperBits := by
  constructor
  · rintro rfl
    exact ⟨opField_encode i, upperField_encode i⟩
  · rintro ⟨hop, hupper⟩
    rw [encode, ← hop, ← hupper, upperField_append_opField]

theorem toNat_opField (w : Word) : (opField w).toNat = w.toNat % 256 := by
  have hlt := (opField w).isLt
  rw [word_toNat_fields]
  omega

theorem opField_eq_ofNat (w : Word) : opField w = BitVec.ofNat 8 (w.toNat % 256) := by
  rw [← toNat_opField, BitVec.ofNat_toNat, BitVec.setWidth_eq]

theorem toNat_upperField (w : Word) : (upperField w).toNat = w.toNat / 256 := by
  have hlt := (opField w).isLt
  rw [word_toNat_fields]
  omega

/-- The mask of format I keeps the opcode alone (R93). -/
theorem and_byteMask_eq_iff {w : Word} {op : Byte} :
    w &&& 0x000000FF#32 = op.setWidth 32 ↔ opField w = op := by
  have hmask : (w &&& 0x000000FF#32).toNat = (opField w).toNat := by
    rw [toNat_opField, BitVec.toNat_and]
    exact Nat.and_two_pow_sub_one_eq_mod w.toNat 8
  rw [← BitVec.toNat_inj, ← BitVec.toNat_inj, hmask, toNat_setWidth_byte]

/-- A 24-bit index is the upper field exactly when it is the word without its low byte (R91). -/
theorem upperField_eq_ofNat_iff {w : Word} {idx : Nat} :
    idxFits idx ∧ upperField w = BitVec.ofNat 24 idx ↔ idx = w.toNat / 256 := by
  rw [← toNat_upperField]
  constructor
  · rintro ⟨hfits, hupper⟩
    rw [hupper, BitVec.toNat_ofNat, Nat.mod_eq_of_lt hfits]
  · rintro rfl
    exact ⟨(upperField w).isLt, by simp⟩

/-! ### The decoder (R93, R94) -/

theorem formatN_error_iff {w : Word} {i : Instr} : (∃ e, formatN w i = .error e) ↔ upperField w ≠ 0#24 := by
  unfold formatN
  split <;> simp [*]

theorem idxOperand_encode {i : Instr} {idx : Nat} (hbits : i.upperBits = BitVec.ofNat 24 idx)
    (h : idxFits idx) : idxOperand (encode i) = idx := by
  rw [idxOperand, upperField_encode, hbits, BitVec.toNat_ofNat, Nat.mod_eq_of_lt h]

/-- The decoder gives back a command from its word: the opcode selects the row, and the upper field is 0
in format N and the index in format I. -/
theorem decodeWord_encode {i : Instr} (h : i.WellFormed) : decodeWord (encode i) = .ok i := by
  have hformatN : i.upperBits = 0#24 → formatN (encode i) i = .ok i :=
    fun hzero => formatN_ok_iff.mpr ⟨(upperField_encode i).trans hzero, rfl⟩
  unfold decodeWord
  rw [opField_encode]
  cases i
  case ldblk idx => exact congrArg (fun k => Except.ok (Instr.ldblk k)) (idxOperand_encode rfl h)
  case stblk idx => exact congrArg (fun k => Except.ok (Instr.stblk k)) (idxOperand_encode rfl h)
  all_goals exact hformatN rfl

/-- The row of the opcode map that a legal word selects: its opcode and its upper field are the command's. -/
theorem fields_of_decodeWord {w : Word} {i : Instr} (h : decodeWord w = .ok i) :
    i.WellFormed ∧ opField w = i.opcode ∧ upperField w = i.upperBits := by
  unfold decodeWord at h
  split at h
  case h_9 hop =>
    obtain rfl := Except.ok.inj h
    exact ⟨(upperField w).isLt, BitVec.eq_of_toNat_eq hop, by simp [idxOperand, Instr.upperBits]⟩
  case h_10 hop =>
    obtain rfl := Except.ok.inj h
    exact ⟨(upperField w).isLt, BitVec.eq_of_toNat_eq hop, by simp [idxOperand, Instr.upperBits]⟩
  case h_15 => cases h
  all_goals
    next hop =>
      obtain ⟨hzero, rfl⟩ := formatN_ok_iff.mp h
      exact ⟨trivial, BitVec.eq_of_toNat_eq hop, hzero⟩

/-- The legal words are the encodings of the well-formed commands. -/
theorem decodeWord_eq_ok_iff {w : Word} {i : Instr} : decodeWord w = .ok i ↔ i.WellFormed ∧ encode i = w := by
  constructor
  · intro h
    obtain ⟨hwf, hfields⟩ := fields_of_decodeWord h
    exact ⟨hwf, encode_eq_iff.mpr hfields⟩
  · rintro ⟨hwf, rfl⟩
    exact decodeWord_encode hwf

/-- A row of format N: the word is the match in every bit, since the mask keeps them all (R93). -/
theorem decodeWord_formatN_iff {w m : Word} {i : Instr} (h : decodeWord m = .ok i) :
    decodeWord w = .ok i ↔ w &&& 0xFFFFFFFF#32 = m := by
  obtain ⟨hwf, rfl⟩ := decodeWord_eq_ok_iff.mp h
  rw [decodeWord_eq_ok_iff, show w &&& 0xFFFFFFFF#32 = w from BitVec.and_allOnes]
  exact ⟨fun ⟨_, henc⟩ => henc.symm, fun henc => ⟨hwf, henc.symm⟩⟩

/-- A row of format I: the mask keeps the opcode, and the index is the rest (R91, R93). -/
theorem decodeWord_formatI_iff {w : Word} {i : Instr} {idx : Nat} (hwf : i.WellFormed ↔ idxFits idx)
    (hbits : i.upperBits = BitVec.ofNat 24 idx) :
    decodeWord w = .ok i ↔ w &&& 0x000000FF#32 = i.opcode.setWidth 32 ∧ idx = w.toNat / 256 := by
  rw [decodeWord_eq_ok_iff, encode_eq_iff, and_byteMask_eq_iff, ← upperField_eq_ofNat_iff, hwf, hbits,
    and_left_comm]

/-- The words that the decoder refuses (R94). -/
theorem decodeWord_error_iff {w : Word} : (∃ e, decodeWord w = .error e) ↔ illegalWord w := by
  have hop := toNat_opField w
  have hupper : upperField w ≠ 0#24 ↔ 256 ≤ w.toNat := by
    rw [ne_eq, ← BitVec.toNat_inj, toNat_upperField, BitVec.toNat_zero]
    omega
  unfold illegalWord decodeWord
  split
  case h_9 => exact iff_of_false (by simp) (by omega)
  case h_10 => exact iff_of_false (by simp) (by omega)
  case h_15 =>
    simp only [imp_false] at *
    exact iff_of_true ⟨_, rfl⟩ (by omega)
  all_goals
    rw [formatN_error_iff, hupper]
    omega

/-! ### The step on a command word -/

theorem step_illegal {s : State} {w : Word} {rest : List HostAction}
    (hp : s.pending = .write 32 0x000 w :: rest) (hw : illegalWord w) :
    step s = illegalCommand w (accept rest s) := by
  obtain ⟨e, he⟩ := decodeWord_error_iff.mpr hw
  simp [step_write_cmd hp, runCommand, he]

theorem step_illegal_idle {s : State} {w : Word} {rest : List HostAction}
    (hp : s.pending = .write 32 0x000 w :: rest) (hw : illegalWord w) (hm : s.mode = .idle) :
    step s = .next (raise .precondition 1#8 (BitVec.ofNat 8 (w.toNat % 256)) (accept rest s)) := by
  rw [step_illegal hp hw, ← opField_eq_ofNat]
  simp [illegalCommand, hm]

theorem step_illegal_faulted {s : State} {w : Word} {rest : List HostAction}
    (hp : s.pending = .write 32 0x000 w :: rest) (hw : illegalWord w) (hm : s.mode = .faulted) :
    step s = .next (accept rest s) := by
  rw [step_illegal hp hw]
  simp [illegalCommand, hm]

/-- RESET clears the marks on used inputs, whatever the step has noted before it. -/
theorem resetEngine_noteInputs (i : Instr) (s : State) : resetEngine (noteInputs i s) = resetEngine s := by
  unfold noteInputs
  split <;> rfl

/-- R95: a word with the opcode of RESET and another bit set is illegal. -/
theorem illegalWord_of_ne_reset {w : Word} (hop : w.toNat % 256 = 0xFF) (hw : w ≠ 0x000000FF#32) :
    illegalWord w := by
  have hne : w.toNat ≠ 0xFF := fun h => hw (BitVec.eq_of_toNat_eq h)
  unfold illegalWord
  omega

theorem withFetchWord_encode_pending (s : State) (i : Instr) :
    (s.withFetchWord 32 (encode i).toNat).pending = .write 32 0x000 (encode i) :: s.pending := by
  rw [withFetchWord_pending, Nat.mod_eq_of_lt (encode i).isLt, BitVec.ofNat_toNat, BitVec.setWidth_eq]

end Sys2Proof.Machine

open Sys2Proof Sys2Proof.Machine

/-- Settles O1: the opcode of the word selects the command's row, and its upper field is the operand. -/
theorem decodeOfEncodeGivesTheCommandBack : Obligations.DecodeOfEncodeGivesTheCommandBack :=
  fun _ => decodeWord_encode

/-- Settles O2: a word is its two fields, and the row that the decoder selects fixes both. -/
theorem encodeOfDecodeGivesTheWordBack : Obligations.EncodeOfDecodeGivesTheWordBack :=
  fun _ _ => decodeWord_eq_ok_iff.mp

/-- Settles O3: the legal words are the encodings, which the match and the mask of each row describe. -/
theorem decoderFollowsTheOpcodeMap : Obligations.DecoderFollowsTheOpcodeMap := by
  refine ⟨fun w p hp => ?_, fun w idx => decodeWord_formatI_iff Iff.rfl rfl,
    fun w idx => decodeWord_formatI_iff Iff.rfl rfl⟩
  have hmatch : decodeWord p.2 = .ok p.1 := by
    revert p
    decide
  exact decodeWord_formatN_iff hmatch

/-- Settles O4: the decoder's refusals are `illegalWord`, and the step hands such a word to `illegalCommand`. -/
theorem illegalWordsFaultOrAreIgnored : Obligations.IllegalWordsFaultOrAreIgnored :=
  fun _ => ⟨decodeWord_error_iff, fun hw _ _ hp => ⟨step_illegal_idle hp hw, step_illegal_faulted hp hw⟩⟩

/-- Settles O5: RESET has one word, and every other word with its low byte is illegal. -/
theorem onlyTheExactResetWordResets : Obligations.OnlyTheExactResetWordResets := by
  refine ⟨fun w => decodeWord_eq_reset_iff, fun w s rest hp hop =>
    ⟨fun hw => ?_, fun hw => ?_, fun hw hm => ?_⟩⟩
  · rw [step_command hp (decodeWord_eq_reset_iff.mpr hw), exec_reset, resetEngine_noteInputs]
  · exact step_illegal_faulted hp (illegalWord_of_ne_reset hop hw)
  · rw [step_illegal_idle hp (illegalWord_of_ne_reset hop hw) hm, hop]

/-- Settles O6. -/
theorem sampleWordsDecode : Obligations.SampleWordsDecode := by
  unfold Obligations.SampleWordsDecode
  decide

/-- Settles O8: the placed word is the command's encoding, which the step decodes to it. -/
theorem placedCommandIsTheNextToRun : Obligations.PlacedCommandIsTheNextToRun :=
  fun s i hwf => step_command (withFetchWord_encode_pending s i) (decodeWord_encode hwf)
end

section
/-! LOADKT (R110, R111): its one requirement, and the table that a success loads. Settles O15. -/

namespace Sys2Proof.Machine

theorem exec_loadkt {s : State} (hm : s.mode = .idle) (hlen : 4168 ≤ s.key.len) :
    exec .loadkt s = .next (effectLoadkt s) :=
  exec_succeeds (by simp) hm (by simp [needsOf, needsLoadkt, hlen])

/-- A blob shorter than `KEYBLOB_BYTES` is a truncated input (R111). -/
theorem exec_loadkt_short {s : State} (hm : s.mode = .idle) (hlen : s.key.len < 4168) :
    exec .loadkt s = .next (raise .truncatedInput 1#8 0x01#8 s) :=
  exec_fails (q := ⟨decide (Config.keyBlobBytes ≤ s.key.len), .truncatedInput, 1#8⟩) (by simp) hm
    (by simp [needsOf, needsLoadkt, hlen])

/-- An entry of the table is the word at its place in the blob (R110). -/
theorem lookup_kt_effectLoadkt {s : State} {i : Nat} (hi : i < 1042) :
    Store.lookup (effectLoadkt s).kt i = some (s.key.word (4 * i)) := by
  rw [(effectLoadkt_result s).1, Store.lookup_fill_in _ _ (Nat.zero_le i) (by omega)]

/-- Nothing beyond the `N_KT` entries is written. -/
theorem lookup_kt_effectLoadkt_beyond {s : State} {i : Nat} (hi : 1042 ≤ i) :
    Store.lookup (effectLoadkt s).kt i = Store.lookup s.kt i := by
  rw [(effectLoadkt_result s).1, Store.lookup_fill_out _ _ (by simp only [Config.ktEntries]; omega)]

end Sys2Proof.Machine

open Sys2Proof Sys2Proof.Machine

/-- Settles O15: the length of the blob decides between the fault and `effectLoadkt`, which writes each entry
from its word of the blob. -/
theorem loadktLoadsTheWholeBlob : Obligations.LoadktLoadsTheWholeBlob := by
  refine ⟨decodeWord_encode (i := .loadkt) trivial, fun s hm => ⟨fun hlen => ?_, exec_loadkt_short hm⟩⟩
  exact ⟨effectLoadkt s, exec_loadkt hm hlen,
    fun i hi => ⟨_, lookup_kt_effectLoadkt hi, Space.word_toNat s.key (4 * i)⟩,
    fun _ => lookup_kt_effectLoadkt_beyond, by simp only [effectLoadkt]⟩
end

section
/-! DECHDR (R120): its one requirement, and the little-endian words that a success writes. Settles O16. -/

namespace Sys2Proof.Machine

theorem exec_dechdr {s : State} (hm : s.mode = .idle) (hlen : Config.layout.hdrSize ≤ s.img.len) :
    exec .dechdr s = .next (effectDechdr Config.layout s) :=
  exec_succeeds (by simp) hm (by simp [needsOf, needsDechdr, hlen])

/-- An image shorter than `HDR_SIZE` is a truncated input (R120). -/
theorem exec_dechdr_short {s : State} (hm : s.mode = .idle) (hlen : s.img.len < Config.layout.hdrSize) :
    exec .dechdr s = .next (raise .truncatedInput 2#8 0x02#8 s) :=
  exec_fails (q := ⟨decide (Config.layout.hdrSize ≤ s.img.len), .truncatedInput, 2#8⟩) (by simp) hm
    (by simp [needsOf, needsDechdr, hlen])

/-- A register that a command has written with a word of a space holds the number of its four bytes. -/
theorem holdsLe32_word (sp : Space) (a : Nat) : holdsLe32 (Reg.holds (sp.word a)) sp a :=
  ⟨rfl, Space.word_toNat sp a⟩

end Sys2Proof.Machine

open Sys2Proof Sys2Proof.Machine

/-- Settles O16: the length of the image decides between the fault and `effectDechdr`, which writes each
field from its own word of the image. -/
theorem dechdrDecodesTheFourFields : Obligations.DechdrDecodesTheFourFields := by
  refine ⟨decodeWord_encode (i := .dechdr) trivial, fun s hm => ⟨fun hlen => ?_, exec_dechdr_short hm⟩⟩
  exact ⟨effectDechdr Config.layout s, exec_dechdr hm hlen, holdsLe32_word _ _, holdsLe32_word _ _,
    holdsLe32_word _ _, holdsLe32_word _ _, holdsLe32_word _ _, holdsLe32_word _ _,
    by simp only [effectDechdr]⟩
end

section
/-! The cipher on numbers (R131, R132): the round function as a formula, and the block function as a sequence of
sixteen rounds that is the same for both directions but for the index of the subkey. Settles O28, O29, O34. -/

namespace Sys2Proof.Machine

/-! ### Exclusive or cancels -/

theorem xor_xor_cancel_left {n : Nat} (x y : BitVec n) : x ^^^ (x ^^^ y) = y := by
  rw [← BitVec.xor_assoc, BitVec.xor_self, BitVec.zero_xor]

theorem xor_xor_xor_cancel_middle {n : Nat} (x y z : BitVec n) : x ^^^ y ^^^ (y ^^^ z) = x ^^^ z := by
  rw [BitVec.xor_assoc, xor_xor_cancel_left]

/-! ### Bytes and halves as numbers -/

/-- A byte of a word (R9). -/
theorem toNat_wordByte (z : Word) (k : Nat) : (z.extractLsb' k 8).toNat = z.toNat / 2 ^ k % 256 := by
  rw [BitVec.extractLsb'_toNat, Nat.shiftRight_eq_div_pow]

theorem toNat_loHalf (b : Block) : (loHalf b).toNat = b.toNat % 2 ^ 32 := by
  rw [loHalf, BitVec.extractLsb'_toNat, Nat.shiftRight_zero]

theorem toNat_hiHalf (b : Block) : (hiHalf b).toNat = b.toNat / 2 ^ 32 := by
  have hlt : b.toNat / 2 ^ 32 < 2 ^ 32 := Nat.div_lt_of_lt_mul b.isLt
  rw [hiHalf, BitVec.extractLsb'_toNat, Nat.shiftRight_eq_div_pow, Nat.mod_eq_of_lt hlt]

/-! ### The sixteen rounds of a direction -/

/-- Place `r` in the subkeys of a direction: places 0 to 15 serve the rounds in order, and places 16 and 17
the finalisation (R132). -/
def subkeyIndex (dir : Dir) (r : Nat) : Nat :=
  match dir with
  | .enc => r
  | .dec => 17 - r

/-- The pair `(x, y)` after the first `n` rounds (R132). -/
def afterRounds (T : Table) (dir : Dir) (p : Word × Word) (n : Nat) : Word × Word :=
  match n with
  | 0 => p
  | r + 1 => cipherRound T (subkeyIndex dir r) (afterRounds T dir p r)

theorem cipherRounds_roundOrder (T : Table) (dir : Dir) (p : Word × Word) :
    cipherRounds (fun _ => T) (roundOrder dir) 0 p = afterRounds T dir p 16 := by
  cases dir <;> rfl

/-- The final words of a direction are the subkeys at places 16 and 17. -/
theorem cipherFinish_eq (T : Table) (dir : Dir) (p : Word × Word) :
    cipherFinish T dir p = (p.1 ^^^ T (subkeyIndex dir 17)) ++ (p.2 ^^^ T (subkeyIndex dir 16)) := by
  cases dir <;> rfl

theorem crypt_eq (T : Table) (b : Block) (dir : Dir) :
    crypt T b dir =
      ((afterRounds T dir (loHalf b, hiHalf b) 16).1 ^^^ T (subkeyIndex dir 17)) ++
        ((afterRounds T dir (loHalf b, hiHalf b) 16).2 ^^^ T (subkeyIndex dir 16)) := by
  rw [crypt, cryptReads, cipherRounds_roundOrder, cipherFinish_eq]

/-- Sequences that start at `p` and follow the rule of a round are the pairs after each round. -/
theorem afterRounds_of_follows {T : Table} {dir : Dir} {p : Word × Word} {x y : Nat → Word}
    (hstart : p = (x 0, y 0))
    (hround : ∀ r < 16, x (r + 1) = y r ^^^ roundF T (T (subkeyIndex dir r) ^^^ x r) ∧
      y (r + 1) = T (subkeyIndex dir r) ^^^ x r) :
    ∀ n ≤ 16, afterRounds T dir p n = (x n, y n) := by
  intro n hn
  induction n with
  | zero => exact hstart
  | succ r ih =>
    obtain ⟨hx, hy⟩ := hround r hn
    rw [afterRounds, ih (Nat.le_of_succ_le hn), cipherRound, hx, hy]

/-- R132 for either direction, on numbers. -/
theorem toNat_crypt_of_follows {T : Table} {b : Block} (dir : Dir) {x y : Nat → Word} {key : Nat → Nat}
    (hx : (x 0).toNat = b.toNat % 2 ^ 32) (hy : (y 0).toNat = b.toNat / 2 ^ 32)
    (hround : ∀ r < 16, x (r + 1) = y r ^^^ roundF T (T (key r) ^^^ x r) ∧ y (r + 1) = T (key r) ^^^ x r)
    (hkey : ∀ r < 16, key r = subkeyIndex dir r) :
    (crypt T b dir).toNat =
      (x 16 ^^^ T (subkeyIndex dir 17)).toNat * 2 ^ 32 + (y 16 ^^^ T (subkeyIndex dir 16)).toNat := by
  have hlo : loHalf b = x 0 := BitVec.eq_of_toNat_eq ((toNat_loHalf b).trans hx.symm)
  have hhi : hiHalf b = y 0 := BitVec.eq_of_toNat_eq ((toNat_hiHalf b).trans hy.symm)
  have hafter : afterRounds T dir (loHalf b, hiHalf b) 16 = (x 16, y 16) :=
    afterRounds_of_follows (by rw [hlo, hhi]) (fun r hr => hkey r hr ▸ hround r hr) 16 (Nat.le_refl 16)
  rw [crypt_eq, hafter, toNat_append_bits]

/-! ### The all-zero table -/

theorem roundF_zero (z : Word) : roundF (fun _ => 0#32) z = 0#32 := by simp [roundF]

/-- Over the all-zero table a round exchanges `x` and `y` (R133 (b)). -/
theorem afterRounds_zero (dir : Dir) (p : Word × Word) (n : Nat) :
    afterRounds (fun _ => 0#32) dir p n = Prod.swap^[n] p := by
  induction n with
  | zero => rfl
  | succ r ih =>
    rw [afterRounds, ih, Function.iterate_succ_apply']
    simp [cipherRound, roundF_zero, Prod.swap]

end Sys2Proof.Machine

open Sys2Proof Sys2Proof.Machine

/-- Settles O28: the four bytes of `z` are its quotients, and each addition narrows its sum. -/
theorem roundFunctionIsTheFormula : Obligations.RoundFunctionIsTheFormula := by
  intro T z
  have hhigh : z.toNat / 2 ^ 24 % 256 = z.toNat / 2 ^ 24 :=
    Nat.mod_eq_of_lt (Nat.div_lt_of_lt_mul z.isLt)
  simp only [roundF, BitVec.toNat_add, BitVec.toNat_xor, toNat_wordByte, hhigh, pow_zero, Nat.div_one]

/-- Settles O29: the two sequences are the pairs after each round, whichever the direction. -/
theorem cryptFollowsTheSixteenRounds : Obligations.CryptFollowsTheSixteenRounds :=
  fun _ _ _ _ _ hx hy hround =>
    ⟨toNat_crypt_of_follows .enc hx hy hround, toNat_crypt_of_follows .dec hx hy hround⟩

/-- Settles O34: sixteen exchanges restore the pair, and the reassembly puts `x` above `y`. -/
theorem zeroTableSwapsTheHalves : Obligations.ZeroTableSwapsTheHalves := by
  intro h l dir
  have hafter : afterRounds (fun _ => 0#32) dir (l, h) 16 = (l, h) := by
    rw [afterRounds_zero, show 16 = 2 * 8 from rfl, Function.Involutive.iterate_two_mul Prod.swap_swap, id]
  rw [crypt_eq, loHalf_append, hiHalf_append, hafter, BitVec.xor_zero, BitVec.xor_zero]
end

section
/-! What the block function reads of the table (R137 (c), (d)): its rounds read neither final word, and nothing
reads beyond the 1042 entries. Settles O32, O33. -/

namespace Sys2Proof.Machine

/-- A round reads its subkey and the S-boxes (R132). -/
theorem cipherRound_congr {T U : Table} {i : Nat} (p : Word × Word) (hkey : T i = U i)
    (hsbox : ∀ j, 18 ≤ j → j < 1042 → T j = U j) : cipherRound T i p = cipherRound U i p := by
  rw [cipherRound, cipherRound, hkey, roundF_congr _ hsbox]

/-- The subkeys of the rounds are entries of the P-array other than the final words of the direction. -/
theorem roundOrder_spec {dir : Dir} {i : Nat} (h : i ∈ roundOrder dir) :
    i < 18 ∧ i ≠ subkeyIndex dir 16 ∧ i ≠ subkeyIndex dir 17 := by
  revert i
  cases dir <;> decide

theorem subkeyIndex_lt {dir : Dir} {r : Nat} (h : r < 18) : subkeyIndex dir r < 18 := by
  cases dir <;> simp only [subkeyIndex] <;> omega

/-- The rounds of a direction read the entries below 1042 but for its two final words (R137 (d)). -/
theorem cipherRounds_roundOrder_congr {rd rd' : Nat → Table} (dir : Dir) (p : Word × Word)
    (h : ∀ r, ∀ i < 1042, i ≠ subkeyIndex dir 16 → i ≠ subkeyIndex dir 17 → rd r i = rd' r i) :
    cipherRounds rd (roundOrder dir) 0 p = cipherRounds rd' (roundOrder dir) 0 p := by
  refine cipherRounds_congr _ _ _ fun r q i hi => ?_
  obtain ⟨hlt, h16, h17⟩ := roundOrder_spec hi
  refine cipherRound_congr q (h r i (by omega) h16 h17) fun j hlo hhi => ?_
  have hj (k : Nat) (hk : k < 18) : j ≠ subkeyIndex dir k :=
    Nat.ne_of_gt (Nat.lt_of_lt_of_le (subkeyIndex_lt hk) hlo)
  exact h r j hhi (hj 16 (by decide)) (hj 17 (by decide))

/-- The block function reads the entries below 1042 (R137 (c)). -/
theorem cryptReads_congr {rd rd' : Nat → Table} (b : Block) (dir : Dir)
    (h : ∀ r, ∀ i < 1042, rd r i = rd' r i) : cryptReads rd b dir = cryptReads rd' b dir := by
  have hfinal (k : Nat) (hk : k < 18) : rd 16 (subkeyIndex dir k) = rd' 16 (subkeyIndex dir k) :=
    h 16 _ (Nat.lt_trans (subkeyIndex_lt hk) (by decide))
  rw [cryptReads, cryptReads, cipherRounds_roundOrder_congr dir _ fun r i hi _ _ => h r i hi,
    cipherFinish_eq, cipherFinish_eq, hfinal 17 (by decide), hfinal 16 (by decide)]

/-- Law (d) of R137: what the final words contribute cancels but for their difference. -/
theorem crypt_xor_crypt {T U : Table} (b : Block) {dir : Dir}
    (h : ∀ i, i ≠ subkeyIndex dir 16 → i ≠ subkeyIndex dir 17 → T i = U i) :
    crypt T b dir ^^^ crypt U b dir =
      (T (subkeyIndex dir 17) ^^^ U (subkeyIndex dir 17)) ++
        (T (subkeyIndex dir 16) ^^^ U (subkeyIndex dir 16)) := by
  have hcancel (x t u : Word) : x ^^^ t ^^^ (x ^^^ u) = t ^^^ u := by
    rw [BitVec.xor_comm x, xor_xor_xor_cancel_middle]
  rw [crypt, crypt, cryptReads, cryptReads,
    cipherRounds_roundOrder_congr (rd' := fun _ => U) dir _ fun _ i _ => h i,
    cipherFinish_eq, cipherFinish_eq, BitVec.xor_append, hcancel, hcancel]

end Sys2Proof.Machine

open Sys2Proof Sys2Proof.Machine

/-- Settles O32. -/
theorem cryptReadsOnlyTheTable : Obligations.CryptReadsOnlyTheTable :=
  fun _ _ b dir h => cryptReads_congr b dir fun _ => h

/-- Settles O33: 16 and 17 are the final places of an encryption, and 1 and 0 those of a decryption. -/
theorem finalWordsEnterOnlyTheFinalisation : Obligations.FinalWordsEnterOnlyTheFinalisation :=
  ⟨fun _ _ b h => crypt_xor_crypt (dir := .enc) b h,
    fun _ _ b h => crypt_xor_crypt (dir := .dec) b fun i h1 h0 => h i h0 h1⟩
end

section
/-! How the two directions undo each other (R136, R137 (b)): exactly, once the difference of the two final words
is taken out of both halves. Settles O30, O31. -/

namespace Sys2Proof.Machine

/-- The other direction. -/
def Dir.reverse (dir : Dir) : Dir :=
  match dir with
  | .enc => .dec
  | .dec => .enc

@[simp] theorem Dir.reverse_reverse (dir : Dir) : dir.reverse.reverse = dir := by cases dir <;> rfl

/-- The other direction takes the eighteen subkeys from the far end. -/
theorem subkeyIndex_reverse {m r : Nat} (dir : Dir) (h : m + r = 17) :
    subkeyIndex dir.reverse r = subkeyIndex dir m := by
  cases dir <;> simp only [subkeyIndex, Dir.reverse] <;> omega

/-- The difference of the two final words of a direction, in both halves. -/
def finalGap (T : Table) (dir : Dir) : Block :=
  (T (subkeyIndex dir 17) ^^^ T (subkeyIndex dir 16)) ++ (T (subkeyIndex dir 17) ^^^ T (subkeyIndex dir 16))

/-- The pair `(y, x)` under the entries `j` and `k`: what the other direction holds where this one
holds `(x, y)`. -/
def crossed (T : Table) (j k : Nat) (p : Word × Word) : Word × Word := (p.2 ^^^ T j, p.1 ^^^ T k)

/-- A round with the entry that covers `y` takes the last round back. -/
theorem cipherRound_crossed (T : Table) (i j k : Nat) (p : Word × Word) :
    cipherRound T j (crossed T j k (cipherRound T i p)) = crossed T k i p := by
  have huncover (z : Word) : T j ^^^ (z ^^^ T j) = z := by
    rw [BitVec.xor_comm z, xor_xor_cancel_left]
  have hcancel (y f t : Word) : y ^^^ f ^^^ t ^^^ f = y ^^^ t := by
    rw [BitVec.xor_assoc, BitVec.xor_comm t, xor_xor_xor_cancel_middle]
  simp only [cipherRound, crossed, huncover, hcancel, BitVec.xor_comm (T i) p.1]

/-- From the crossed pair after round 16 on, `r` rounds of the other direction lead to the crossed pair
after round `16 - r`. -/
theorem afterRounds_reverse (T : Table) (dir : Dir) (p : Word × Word) {m r : Nat} (h : m + r = 16) :
    afterRounds T dir.reverse
        (crossed T (subkeyIndex dir 17) (subkeyIndex dir 16) (afterRounds T dir p 16)) r =
      crossed T (subkeyIndex dir (m + 1)) (subkeyIndex dir m) (afterRounds T dir p m) := by
  induction r generalizing m with
  | zero =>
    obtain rfl : m = 16 := h
    rfl
  | succ r ih =>
    rw [afterRounds, ih (m := m + 1) (by omega), subkeyIndex_reverse (m := m + 1 + 1) dir (by omega),
      afterRounds, cipherRound_crossed]

/-- Without the gap, the result of a direction is the crossed pair after its sixteen rounds. -/
theorem halves_crypt_xor_finalGap (T : Table) (b : Block) (dir : Dir) :
    (loHalf (crypt T b dir ^^^ finalGap T dir), hiHalf (crypt T b dir ^^^ finalGap T dir)) =
      crossed T (subkeyIndex dir 17) (subkeyIndex dir 16)
        (afterRounds T dir (loHalf b, hiHalf b) 16) := by
  have hlo (y s t : Word) : y ^^^ s ^^^ (t ^^^ s) = y ^^^ t := by
    rw [BitVec.xor_comm t, xor_xor_xor_cancel_middle]
  rw [crypt_eq, finalGap, BitVec.xor_append, loHalf_append, hiHalf_append, hlo, xor_xor_xor_cancel_middle,
    crossed]

/-- R136 for every table: each direction undoes the other up to the gaps of the two. -/
theorem crypt_reverse (T : Table) (b : Block) (dir : Dir) :
    crypt T (crypt T b dir ^^^ finalGap T dir) dir.reverse = b ^^^ finalGap T dir.reverse := by
  rw [crypt_eq _ _ dir.reverse, halves_crypt_xor_finalGap, afterRounds_reverse T dir _ (Nat.zero_add 16),
    finalGap, subkeyIndex_reverse dir (Nat.zero_add 17), subkeyIndex_reverse (m := 1) dir rfl]
  conv_rhs => rw [← hiHalf_append_loHalf b, BitVec.xor_append]
  simp only [crossed, afterRounds, BitVec.xor_assoc, BitVec.xor_comm (T (subkeyIndex dir 1))]

theorem xor_finalGap_cancel (T : Table) (dir : Dir) (b : Block) :
    b ^^^ finalGap T dir ^^^ finalGap T dir = b := by
  rw [BitVec.xor_assoc, BitVec.xor_self, BitVec.xor_zero]

theorem finalGap_eq_zero {T : Table} {dir : Dir} (h : T (subkeyIndex dir 16) = T (subkeyIndex dir 17)) :
    finalGap T dir = 0#64 := by
  rw [finalGap, h, BitVec.xor_self]
  rfl

/-- R136: equal final words in both directions leave no gap. -/
theorem crypt_reverse_of_equal {T : Table} (b : Block) (dir : Dir)
    (h : T (subkeyIndex dir 16) = T (subkeyIndex dir 17))
    (hrev : T (subkeyIndex dir.reverse 16) = T (subkeyIndex dir.reverse 17)) :
    crypt T (crypt T b dir) dir.reverse = b := by
  simpa only [finalGap_eq_zero h, finalGap_eq_zero hrev, BitVec.xor_zero] using crypt_reverse T b dir

/-- The inverse of a direction: the other direction between the two gaps. -/
def uncrypt (T : Table) (dir : Dir) (c : Block) : Block :=
  crypt T (c ^^^ finalGap T dir) dir.reverse ^^^ finalGap T dir.reverse

theorem uncrypt_crypt (T : Table) (dir : Dir) (b : Block) : uncrypt T dir (crypt T b dir) = b := by
  rw [uncrypt, crypt_reverse, xor_finalGap_cancel]

theorem crypt_uncrypt (T : Table) (dir : Dir) (c : Block) : crypt T (uncrypt T dir c) dir = c := by
  have hundo := crypt_reverse T (c ^^^ finalGap T dir) dir.reverse
  rwa [Dir.reverse_reverse, xor_finalGap_cancel] at hundo

end Sys2Proof.Machine

open Sys2Proof Sys2Proof.Machine

/-- Settles O30: the round trip is the law of both gaps, which are 0 here; the counterexample is evaluated. -/
theorem roundTripHoldsForEqualFinalWordsAndFailsInGeneral :
    Obligations.RoundTripHoldsForEqualFinalWordsAndFailsInGeneral :=
  ⟨fun _ b hlast hfirst =>
    ⟨crypt_reverse_of_equal b .enc hlast hfirst.symm, crypt_reverse_of_equal b .dec hfirst.symm hlast⟩,
    by decide, by decide⟩

/-- Settles O31: `uncrypt` is an inverse on both sides. -/
theorem cryptIsABijection : Obligations.CryptIsABijection :=
  fun T dir => Function.bijective_iff_has_inverse.mpr ⟨uncrypt T dir, uncrypt_crypt T dir, crypt_uncrypt T dir⟩
end

section
/-! ENC and DEC (R133, R134), as one command with a direction: its one requirement, and what a success writes.
Settles O17, O18. -/

namespace Sys2Proof.Machine

/-- The command of a direction. -/
def cipherInstr (dir : Dir) : Instr :=
  match dir with
  | .enc => .enc
  | .dec => .dec

theorem cipherInstr_ne_reset (dir : Dir) : cipherInstr dir ≠ .reset := by cases dir <;> simp [cipherInstr]

theorem needsOf_cipherInstr (dir : Dir) : needsOf (cipherInstr dir) = needsCipher := by cases dir <;> rfl

theorem effectOf_cipherInstr (dir : Dir) : effectOf (cipherInstr dir) = effectCipher dir := by cases dir <;> rfl

theorem exec_cipherInstr (dir : Dir) {s : State} (hm : s.mode = .idle) (hkt : s.valid.kt = true)
    (hblk : s.valid.blk = true) : exec (cipherInstr dir) s = .next (effectCipher dir s) := by
  rw [← effectOf_cipherInstr]
  exact exec_succeeds (cipherInstr_ne_reset dir) hm (by simp [needsOf_cipherInstr, needsCipher, hkt, hblk])

/-- A table or a block that is not valid fails the requirement. -/
theorem exec_cipherInstr_not_valid (dir : Dir) {s : State} (hm : s.mode = .idle)
    (hv : (s.valid.kt && s.valid.blk) = false) :
    exec (cipherInstr dir) s = .next (raise .precondition 2#8 (cipherInstr dir).opcode s) :=
  exec_fails (q := ⟨s.valid.kt && s.valid.blk, .precondition, 2#8⟩) (cipherInstr_ne_reset dir) hm
    (by simp [needsOf_cipherInstr, needsCipher, hv])

/-- Over a store that lists the whole table, every `Crypt` of a command is `Crypt` over the table (R41). -/
theorem cryptKt_of_written {kt : Store 32} {T : Table} (h : ∀ i < 1042, Store.lookup kt i = some (T i))
    (draw n : Nat) (b : Block) (dir : Dir) : cryptKt kt draw n b dir = crypt T b dir :=
  cryptReads_congr b dir fun _ i hi => ktView_written (h i hi) _ _

theorem getBlk_effectCipher (dir : Dir) (s : State) :
    getBlk (effectCipher dir s) = cryptKt s.kt s.draws 0 (getBlk s) dir := getBlk_setBlk _ _

/-- The first `Crypt` of a command reads the table at the sites of its rounds. -/
theorem cryptKt_zero (kt : Store 32) (draw : Nat) (b : Block) (dir : Dir) :
    cryptKt kt draw 0 b dir = cryptReads (fun r => ktView kt draw r) b dir := by
  simp only [cryptKt, Nat.mul_zero, Nat.zero_add]

/-- A command of the cipher replaces `BLK` by its `Crypt`, and nothing else. -/
theorem exec_cipherInstr_result (dir : Dir) {s : State} (hm : s.mode = .idle) (hkt : s.valid.kt = true)
    (hblk : s.valid.blk = true) :
    ∃ t, exec (cipherInstr dir) s = .next t ∧
      getBlk t = cryptReads (fun r => ktView s.kt s.draws r) (getBlk s) dir ∧
      (∀ T, tableIs s T → getBlk t = crypt T (getBlk s) dir) ∧
      t.blkLo.written = true ∧ t.blkHi.written = true ∧
      t = { s with blkLo := t.blkLo, blkHi := t.blkHi } :=
  ⟨effectCipher dir s, exec_cipherInstr dir hm hkt hblk,
    (getBlk_effectCipher dir s).trans (cryptKt_zero _ _ _ _),
    fun _ hT => (getBlk_effectCipher dir s).trans (cryptKt_of_written hT _ _ _ _),
    rfl, rfl, by simp only [effectCipher, setBlk]⟩

end Sys2Proof.Machine

open Sys2Proof Sys2Proof.Machine

/-- Settles O17: the command of the direction `enc`. -/
theorem encEncryptsTheBlockRegister : Obligations.EncEncryptsTheBlockRegister :=
  ⟨decodeWord_encode (i := .enc) trivial, fun _ hm =>
    ⟨exec_cipherInstr_result .enc hm, exec_cipherInstr_not_valid .enc hm⟩⟩

/-- Settles O18: the command of the direction `dec`. -/
theorem decDecryptsTheBlockRegister : Obligations.DecDecryptsTheBlockRegister :=
  ⟨decodeWord_encode (i := .dec) trivial, fun _ hm =>
    ⟨exec_cipherInstr_result .dec hm, exec_cipherInstr_not_valid .dec hm⟩⟩
end

section
/-! MKKEY (R150): its one requirement, and the keycode that a success forms, as numbers. Settles O19. -/

namespace Sys2Proof.Machine

theorem exec_mkkey {s : State} (hm : s.mode = .idle) (hhdr : s.valid.hdr = true) :
    exec .mkkey s = .next (effectMkkey s) :=
  exec_succeeds (by simp) hm (by simp [needsOf, needsMkkey, hhdr])

/-- A header that is not valid fails the requirement. -/
theorem exec_mkkey_not_valid {s : State} (hm : s.mode = .idle) (hhdr : s.valid.hdr = false) :
    exec .mkkey s = .next (raise .precondition 2#8 0x05#8 s) :=
  exec_fails (q := ⟨s.valid.hdr, .precondition, 2#8⟩) (by simp) hm (by simp [needsOf, needsMkkey, hhdr])

/-- The logical shift to the right halves the number. -/
theorem toNat_ushiftRight_one (c : Word) : (c >>> 1).toNat = c.toNat / 2 := by
  rw [BitVec.toNat_ushiftRight, Nat.shiftRight_eq_div_pow, Nat.pow_one]

/-- The shift to the left doubles the number, modulo the width. -/
theorem toNat_shiftLeft_one (c : Word) : (c <<< 1).toNat = 2 * c.toNat % 2 ^ 32 := by
  rw [BitVec.toNat_shiftLeft, Nat.shiftLeft_eq, Nat.pow_one, Nat.mul_comm]

end Sys2Proof.Machine

open Sys2Proof Sys2Proof.Machine

/-- Settles O19: the bit `VALID.HDR` decides between the fault and `effectMkkey`, whose shifts are the half and
the double of the game code. -/
theorem mkkeyFormsTheKeycode : Obligations.MkkeyFormsTheKeycode := by
  refine ⟨decodeWord_encode (i := .mkkey) trivial, fun s hm => ⟨fun hhdr => ?_, exec_mkkey_not_valid hm⟩⟩
  exact ⟨effectMkkey s, exec_mkkey hm hhdr, rfl, rfl, toNat_ushiftRight_one _, rfl, toNat_shiftLeft_one _,
    by simp only [effectMkkey]⟩
end

section
/-! DERIVE (R153, R154): over a table that is wholly written, each of its three steps on the store is the step on
the pure table; and its independence from `KC[2]`. Settles O20, O35. -/

namespace Sys2Proof.Machine

theorem exec_derive {s : State} (hm : s.mode = .idle) (hkt : s.valid.kt = true) (hkc : s.valid.kc = true) :
    exec .derive s = .next (effectDerive s) :=
  exec_succeeds (by simp) hm (by simp [needsOf, needsDerive, hkt, hkc])

/-- A table or a keycode that is not valid fails the requirement. -/
theorem exec_derive_not_valid {s : State} (hm : s.mode = .idle) (hv : (s.valid.kt && s.valid.kc) = false) :
    exec .derive s = .next (raise .precondition 2#8 0x06#8 s) :=
  exec_fails (q := ⟨s.valid.kt && s.valid.kc, .precondition, 2#8⟩) (by simp) hm
    (by simp [needsOf, needsDerive, hv])

/-! ### The three steps over a store that lists a table -/

/-- The store lists the whole table `T`: `tableIs` of a state, said of its store. -/
def ListsTable (kt : Store 32) (T : Table) : Prop := ∀ i < 1042, Store.lookup kt i = some (T i)

theorem tableIs_iff (s : State) (T : Table) : tableIs s T ↔ ListsTable s.kt T := Iff.rfl

/-- Writing an entry of the store updates the table it lists. -/
theorem listsTable_put {kt : Store 32} {T : Table} (h : ListsTable kt T) (i : Nat) (v : Word) :
    ListsTable (Store.put kt i v) (Function.update T i v) := by
  intro c hc
  rw [Store.lookup_put, Function.update_apply]
  split
  · rfl
  · exact h c hc

/-- Step 1: the keycode word is encrypted under the table. -/
theorem keycodeWord_of_listsTable {kt : Store 32} {T : Table} (h : ListsTable kt T) (draw n : Nat) (kc : Word) :
    keycodeWord kt draw n kc = encryptedKeycode T kc := by
  rw [keycodeWord, cryptKt_of_written h, encryptedKeycode]

/-- Step 2: the first twelve entries are folded with the keycode words. -/
theorem listsTable_foldKeycode {kt : Store 32} {T : Table} (h : ListsTable kt T) (draw : Nat)
    (kc0 kc1 : Word) : ListsTable (foldKeycode kt draw kc0 kc1) (foldedTable T kc0 kc1) := by
  intro i hi
  by_cases hfold : i < 12
  · rw [foldKeycode, Store.lookup_fill_in _ _ (Nat.zero_le i) (by omega), ktView_written (h i hi),
      foldedTable, if_pos hfold]
  · rw [lookup_foldKeycode_beyond _ _ _ _ (Nat.le_of_not_lt hfold), h i hi, foldedTable, if_neg hfold]

/-- Step 3, from its iteration `n` on: the loop invariant is that the scratch block and the store are those of
`refilled`, so that the next encryption is the next one under the pure table. -/
theorem listsTable_refill {kt : Store 32} {T : Table} {n : Nat} (h : ListsTable kt (refilled T n).2)
    (draw count : Nat) :
    ListsTable (refill draw count (2 * n) (refilled T n).1 kt) (refilled T (n + count)).2 := by
  induction count generalizing n kt with
  | zero => exact h
  | succ c ih =>
    have hnext : n + (c + 1) = n + 1 + c := by omega
    rw [refill, cryptKt_of_written h, hnext]
    exact ih (n := n + 1) (listsTable_put (listsTable_put h _ _) _ _)

theorem listsTable_deriveTable {kt : Store 32} {T : Table} (h : ListsTable kt T) (draw : Nat)
    (kc0 kc1 : Word) : ListsTable (deriveTable kt draw kc0 kc1) (refilled (foldedTable T kc0 kc1) 66).2 :=
  listsTable_refill (n := 0) (listsTable_foldKeycode h draw kc0 kc1) draw 66

/-! ### Which entries DERIVE writes -/

/-- Every entry that step 3 fills is written. -/
theorem isSome_lookup_kt_effectDerive {s : State} {i : Nat} (hi : i < 132) :
    (Store.lookup (effectDerive s).kt i).isSome = true := by
  rw [(effectDerive_result s).2.2]
  exact isSome_lookup_refill _ _ _ _ _ (.inr ⟨Nat.zero_le i, by omega⟩)

/-- Nothing beyond those entries is written. -/
theorem lookup_kt_effectDerive_beyond {s : State} {i : Nat} (hi : 132 ≤ i) :
    Store.lookup (effectDerive s).kt i = Store.lookup s.kt i := by
  rw [(effectDerive_result s).2.2, deriveTable, lookup_refill_beyond _ _ _ _ _ (by omega),
    lookup_foldKeycode_beyond _ _ _ _ (by omega)]

/-! ### The effect over a table that is wholly written -/

theorem derivedKc0_of_tableIs {s : State} {T : Table} (h : tableIs s T) :
    derivedKc0 s = encryptedKeycode T (getKc0 s) := keycodeWord_of_listsTable h _ _ _

theorem derivedKc1_of_tableIs {s : State} {T : Table} (h : tableIs s T) :
    derivedKc1 s = encryptedKeycode T (getKc1 s) := keycodeWord_of_listsTable h _ _ _

theorem tableIs_effectDerive {s : State} {T : Table} (h : tableIs s T) :
    tableIs (effectDerive s) (derivedTable T (getKc0 s) (getKc1 s)) := by
  rw [tableIs_iff, (effectDerive_result s).2.2, derivedTable, ← derivedKc0_of_tableIs h,
    ← derivedKc1_of_tableIs h]
  exact listsTable_deriveTable h _ _ _

/-! ### `KC[2]` (R154) -/

theorem effectDerive_withKc2 (r : Reg 32) (s : State) :
    effectDerive { s with kc2 := r } = { effectDerive s with kc2 := r } := by
  simp only [effectDerive, derivedKc0_congr (s := s) (s' := { s with kc2 := r }) rfl rfl rfl,
    derivedKc1_congr (s := s) (s' := { s with kc2 := r }) rfl rfl rfl]

theorem exec_derive_kc2 {s t : State} (h : exec .derive s = .next t) : t.kc2 = s.kc2 := by
  obtain rfl | ⟨k, info, rfl⟩ | rfl := exec_outcomes h
  · rfl
  · rfl
  · simp [effectOf]

theorem exec_derive_withKc2 {s t : State} (r : Reg 32) (h : exec .derive s = .next t) :
    exec .derive { s with kc2 := r } = .next { t with kc2 := r } := by
  obtain ⟨u, hu, rfl⟩ := exec_related (R := fun t u => u = { t with kc2 := r }) (s' := { s with kc2 := r }) h
    rfl rfl rfl (fun _ _ _ => rfl) fun _ => effectDerive_withKc2 r s
  exact hu

end Sys2Proof.Machine

open Sys2Proof Sys2Proof.Machine

/-- Settles O20: the two valid bits decide between the fault and `effectDerive`, whose steps over a store that
lists a table are the steps on that table. -/
theorem deriveFollowsTheThreeSteps : Obligations.DeriveFollowsTheThreeSteps := by
  refine ⟨decodeWord_encode (i := .derive) trivial, fun s hm =>
    ⟨fun hkt hkc => ?_, exec_derive_not_valid hm⟩⟩
  exact ⟨effectDerive s, exec_derive hm hkt hkc, rfl, rfl,
    fun _ => isSome_lookup_kt_effectDerive, fun _ => lookup_kt_effectDerive_beyond,
    fun _ hT => ⟨derivedKc0_of_tableIs hT, derivedKc1_of_tableIs hT, tableIs_effectDerive hT⟩,
    by simp only [effectDerive]⟩

/-- Settles O35: `KC[2]` is in the frame of DERIVE, and neither its requirement nor its effect reads it. -/
theorem deriveIgnoresKeycodeWordTwo : Obligations.DeriveIgnoresKeycodeWordTwo :=
  fun _ _ r h => ⟨exec_derive_kc2 h, exec_derive_withKc2 r h⟩
end

section
/-! EXTRACT and CLASSIFY (R172, R174, R175): their requirements in the order of R242, the words that EXTRACT reads
from the image, and the two flags that both write. Settles O21, O22. -/

namespace Sys2Proof.Machine

/-! ### The two flags (R174) -/

theorem secureAreaPresent_iff (off : Word) :
    secureAreaPresent off = true ↔ 0x4000 ≤ off.toNat ∧ off.toNat < 0x8000 := by
  simp only [secureAreaPresent, Bool.and_eq_true, decide_eq_true_eq]

theorem secureAreaEncrypted_iff (w : Block) :
    secureAreaEncrypted w = true ↔ w ≠ 0xE7FFDEFFE7FFDEFF#64 := by
  simp only [secureAreaEncrypted, decide_eq_true_eq]

/-- The sentinel is told by its number. -/
theorem secureAreaEncrypted_eq_decide_toNat (w : Block) :
    secureAreaEncrypted w = decide (w.toNat ≠ 0xE7FFDEFFE7FFDEFF) :=
  decide_eq_decide.mpr (not_congr BitVec.toNat_inj.symm)

/-- The one offset that EXTRACT accepts lies in the secure area (R172). -/
theorem secureAreaPresent_supportedOff : secureAreaPresent 0x4000#32 = true := by decide

/-! ### EXTRACT (R172) -/

theorem exec_extract {s : State} (hm : s.mode = .idle) (hhdr : s.valid.hdr = true)
    (hoff : getBootOff s = 0x4000#32) (hcnt : 1 ≤ (getBootCnt s).toNat)
    (hcap : (getBootCnt s).toNat ≤ Config.bcCap) (hlen : 0x4000 + 8 * (getBootCnt s).toNat ≤ s.img.len) :
    exec .extract s = .next (effectExtract s) :=
  exec_succeeds (by simp) hm (by simp [needsOf, needsExtract, hhdr, hoff, hcnt, hcap, hlen])

/-- A header that is not valid fails the first requirement. -/
theorem exec_extract_not_valid {s : State} (hm : s.mode = .idle) (hhdr : s.valid.hdr = false) :
    exec .extract s = .next (raise .precondition 2#8 0x07#8 s) :=
  exec_fails (q := ⟨false, .precondition, 2#8⟩) (by simp) hm (by simp [needsOf, needsExtract, hhdr])

/-- An offset other than `SUPPORTED_OFF` is an unsupported layout. -/
theorem exec_extract_unsupported {s : State} (hm : s.mode = .idle) (hhdr : s.valid.hdr = true)
    (hoff : getBootOff s ≠ 0x4000#32) :
    exec .extract s = .next (raise .unsupportedLayout 1#8 0x07#8 s) := by
  have hne : (getBootOff s).toNat ≠ Config.supportedOff := fun h => hoff (BitVec.eq_of_toNat_eq h)
  exact exec_fails (q := ⟨false, .unsupportedLayout, 1#8⟩) (by simp) hm
    (by simp [needsOf, needsExtract, hhdr, hne])

/-- A boot code of no words fails the third requirement. -/
theorem exec_extract_empty {s : State} (hm : s.mode = .idle) (hhdr : s.valid.hdr = true)
    (hoff : getBootOff s = 0x4000#32) (hcnt : getBootCnt s = 0#32) :
    exec .extract s = .next (raise .precondition 6#8 0x07#8 s) :=
  exec_fails (q := ⟨false, .precondition, 6#8⟩) (by simp) hm
    (by simp [needsOf, needsExtract, hhdr, hoff, hcnt])

/-- A boot code of more words than `BC_CAP` fails the fourth requirement; it is not empty. -/
theorem exec_extract_over_cap {s : State} (hm : s.mode = .idle) (hhdr : s.valid.hdr = true)
    (hoff : getBootOff s = 0x4000#32) (hcap : Config.bcCap < (getBootCnt s).toNat) :
    exec .extract s = .next (raise .precondition 5#8 0x07#8 s) := by
  have hcnt : 1 ≤ (getBootCnt s).toNat := Nat.one_le_of_lt hcap
  exact exec_fails (q := ⟨false, .precondition, 5#8⟩) (by simp) hm
    (by simp [needsOf, needsExtract, hhdr, hoff, hcnt, Nat.not_le.mpr hcap])

/-- An image that ends before the region does is a truncated input. -/
theorem exec_extract_short {s : State} (hm : s.mode = .idle) (hhdr : s.valid.hdr = true)
    (hoff : getBootOff s = 0x4000#32) (hcnt : 1 ≤ (getBootCnt s).toNat)
    (hcap : (getBootCnt s).toNat ≤ Config.bcCap) (hlen : s.img.len < 0x4000 + 8 * (getBootCnt s).toNat) :
    exec .extract s = .next (raise .truncatedInput 3#8 0x07#8 s) :=
  exec_fails (q := ⟨false, .truncatedInput, 3#8⟩) (by simp) hm
    (by simp [needsOf, needsExtract, hhdr, hoff, hcnt, hcap, Nat.not_le.mpr hlen])

/-- A word of the boot code is the word at its place in the image. -/
theorem lookup_bc_effectExtract {s : State} {k : Nat} (hk : k < (getBootCnt s).toNat) :
    Store.lookup (effectExtract s).bc k = some (imgBootWord s k) := by
  rw [(effectExtract_result s).1, Store.lookup_fill_in _ _ (Nat.zero_le k) (by omega)]

/-- Nothing at or beyond `BOOT_CNT` is written. -/
theorem lookup_bc_effectExtract_beyond {s : State} {k : Nat} (hk : (getBootCnt s).toNat ≤ k) :
    Store.lookup (effectExtract s).bc k = Store.lookup s.bc k := by
  rw [(effectExtract_result s).1, Store.lookup_fill_out _ _ (by omega)]

theorem secureEncrypted_effectExtract (s : State) : (effectExtract s).secureEncrypted =
    decide (leNumber (memRead s.img 0x4000 8) ≠ 0xE7FFDEFFE7FFDEFF) := by
  simp only [effectExtract_result, secureAreaEncrypted_eq_decide_toNat, imgBootWord, Space.block_toNat,
    Nat.mul_zero, Nat.add_zero]

/-! ### CLASSIFY (R175) -/

theorem exec_classify {s : State} (hm : s.mode = .idle) (hhdr : s.valid.hdr = true)
    (hbc : s.valid.bc = true) (hlen : 1 ≤ s.bcLen.toNat) :
    exec .classify s = .next (effectClassify s) :=
  exec_succeeds (by simp) hm (by simp [needsOf, needsClassify, hhdr, hbc, hlen])

/-- A header or a boot code that is not valid fails the first requirement. -/
theorem exec_classify_not_valid {s : State} (hm : s.mode = .idle)
    (hv : (s.valid.hdr && s.valid.bc) = false) :
    exec .classify s = .next (raise .precondition 2#8 0x08#8 s) :=
  exec_fails (q := ⟨false, .precondition, 2#8⟩) (by simp) hm (by simp [needsOf, needsClassify, hv])

/-- A boot code of no words has no first word to classify. -/
theorem exec_classify_empty {s : State} (hm : s.mode = .idle) (hhdr : s.valid.hdr = true)
    (hbc : s.valid.bc = true) (hlen : s.bcLen = 0#32) :
    exec .classify s = .next (raise .precondition 6#8 0x08#8 s) :=
  exec_fails (q := ⟨false, .precondition, 6#8⟩) (by simp) hm
    (by simp [needsOf, needsClassify, hhdr, hbc, hlen])

end Sys2Proof.Machine

open Sys2Proof Sys2Proof.Machine

/-- Settles O21: the five requirements decide between the faults and `effectExtract`, which writes each word
from the image and classifies the first one. -/
theorem extractReadsAndClassifiesTheBootCode : Obligations.ExtractReadsAndClassifiesTheBootCode := by
  refine ⟨decodeWord_encode (i := .extract) trivial, fun s hm =>
    ⟨fun hhdr hoff hcnt hcap hlen => ?_, exec_extract_not_valid hm, exec_extract_unsupported hm,
      exec_extract_empty hm, exec_extract_over_cap hm, exec_extract_short hm⟩⟩
  exact ⟨effectExtract s, exec_extract hm hhdr hoff hcnt hcap hlen,
    fun k hk => ⟨_, lookup_bc_effectExtract hk, Space.block_toNat s.img (0x4000 + 8 * k)⟩,
    fun _ => lookup_bc_effectExtract_beyond, secureEncrypted_effectExtract s,
    by simp only [effectExtract, hoff, secureAreaPresent_supportedOff]⟩

/-- Settles O22: the two requirements decide between the faults and `effectClassify`, whose flags are those of
R174. -/
theorem classifyRecomputesTheTwoFlags : Obligations.ClassifyRecomputesTheTwoFlags := by
  refine ⟨decodeWord_encode (i := .classify) trivial, fun s hm =>
    ⟨fun hhdr hbc hlen => ?_, exec_classify_not_valid hm, exec_classify_empty hm⟩⟩
  exact ⟨effectClassify s, exec_classify hm hhdr hbc hlen, secureAreaPresent_iff _, secureAreaEncrypted_iff _,
    rfl⟩
end

section
/-! LDBLK and STBLK (R176, R177): the words of the two commands, their requirements, and the one word that a
success copies. Settles O23, O24. -/

namespace Sys2Proof.Machine

/-- The word of a command of format I, as a number (R91). -/
theorem decodeWord_ofNat_formatI {i : Instr} {idx : Nat} (hwf : i.WellFormed)
    (hbits : i.upperBits = BitVec.ofNat 24 idx) :
    decodeWord (BitVec.ofNat 32 (idx * 256 + i.opcode.toNat)) = .ok i := by
  refine decodeWord_eq_ok_iff.mpr ⟨hwf, BitVec.eq_of_toNat_eq ?_⟩
  have hop := i.opcode.isLt
  rw [encode, toNat_append_byte, hbits, BitVec.toNat_ofNat, BitVec.toNat_ofNat]
  omega

/-! ### LDBLK -/

theorem exec_ldblk {s : State} {idx : Nat} (hm : s.mode = .idle) (hbc : s.valid.bc = true)
    (hidx : idx < s.bcLen.toNat) : exec (.ldblk idx) s = .next (effectLdblk idx s) :=
  exec_succeeds (by simp) hm (by simp [needsOf, needsLdblk, hbc, hidx])

/-- A boot code that is not valid fails the first requirement. -/
theorem exec_ldblk_not_valid {s : State} (idx : Nat) (hm : s.mode = .idle) (hbc : s.valid.bc = false) :
    exec (.ldblk idx) s = .next (raise .precondition 2#8 0x09#8 s) :=
  exec_fails (q := ⟨false, .precondition, 2#8⟩) (by simp) hm (by simp [needsOf, needsLdblk, hbc])

/-- An index outside the boot code fails the second requirement. -/
theorem exec_ldblk_outside {s : State} {idx : Nat} (hm : s.mode = .idle) (hbc : s.valid.bc = true)
    (hidx : s.bcLen.toNat ≤ idx) : exec (.ldblk idx) s = .next (raise .precondition 4#8 0x09#8 s) :=
  exec_fails (q := ⟨false, .precondition, 4#8⟩) (by simp) hm (by simp [needsOf, needsLdblk, hbc, hidx])

theorem getBlk_effectLdblk (idx : Nat) (s : State) : getBlk (effectLdblk idx s) = getBc s idx :=
  getBlk_setBlk _ _

/-! ### STBLK -/

theorem exec_stblk {s : State} {idx : Nat} (hm : s.mode = .idle) (hbc : s.valid.bc = true)
    (hblk : s.valid.blk = true) (hidx : idx < s.bcLen.toNat) :
    exec (.stblk idx) s = .next (effectStblk idx s) :=
  exec_succeeds (by simp) hm (by simp [needsOf, needsStblk, hbc, hblk, hidx])

/-- A boot code or a block that is not valid fails the first requirement. -/
theorem exec_stblk_not_valid {s : State} (idx : Nat) (hm : s.mode = .idle)
    (hv : (s.valid.bc && s.valid.blk) = false) :
    exec (.stblk idx) s = .next (raise .precondition 2#8 0x0A#8 s) :=
  exec_fails (q := ⟨false, .precondition, 2#8⟩) (by simp) hm (by simp [needsOf, needsStblk, hv])

/-- An index outside the boot code fails the second requirement. -/
theorem exec_stblk_outside {s : State} {idx : Nat} (hm : s.mode = .idle) (hbc : s.valid.bc = true)
    (hblk : s.valid.blk = true) (hidx : s.bcLen.toNat ≤ idx) :
    exec (.stblk idx) s = .next (raise .precondition 4#8 0x0A#8 s) :=
  exec_fails (q := ⟨false, .precondition, 4#8⟩) (by simp) hm (by simp [needsOf, needsStblk, hbc, hblk, hidx])

end Sys2Proof.Machine

open Sys2Proof Sys2Proof.Machine

/-- Settles O23: the two requirements decide between the faults and `effectLdblk`, whose `BLK` reads back as
the word. -/
theorem ldblkCopiesTheWordIntoTheBlock : Obligations.LdblkCopiesTheWordIntoTheBlock := by
  refine ⟨fun idx hidx => decodeWord_ofNat_formatI (i := .ldblk idx) hidx rfl, fun s idx hm =>
    ⟨fun hbc hidx => ?_, exec_ldblk_not_valid idx hm, exec_ldblk_outside hm⟩⟩
  exact ⟨effectLdblk idx s, exec_ldblk hm hbc hidx, getBlk_effectLdblk idx s, rfl, rfl, rfl⟩

/-- Settles O24: the two requirements decide between the faults and `effectStblk`, which puts one cell. -/
theorem stblkCopiesTheBlockIntoTheWord : Obligations.StblkCopiesTheBlockIntoTheWord := by
  refine ⟨fun idx hidx => decodeWord_ofNat_formatI (i := .stblk idx) hidx rfl, fun s idx hm =>
    ⟨fun hbc hblk hidx => ?_, exec_stblk_not_valid idx hm, exec_stblk_outside hm⟩⟩
  exact ⟨effectStblk idx s, exec_stblk hm hbc hblk hidx, Store.lookup_put_same _ _ _,
    fun _ hk => Store.lookup_put_other _ _ hk, rfl⟩
end

section
/-! DUMP (R178): the boot code byte by byte; and after EXTRACT, the bytes of the image from which its words were
assembled. Settles O25, O36. -/

namespace Sys2Proof.Machine

/-- A boot code that is not valid fails the requirement. -/
theorem exec_dump_not_valid {s : State} (hm : s.mode = .idle) (hbc : s.valid.bc = false) :
    exec .dump s = .next (raise .precondition 2#8 0x0D#8 s) :=
  exec_fails (q := ⟨false, .precondition, 2#8⟩) (by simp) hm (by simp [needsOf, needsDump, hbc])

/-- Nothing beyond the boot code is written. -/
theorem lookup_out_effectDump_beyond {s : State} {a : Nat} (ha : 8 * s.bcLen.toNat ≤ a) :
    Store.lookup (effectDump s).out a = Store.lookup s.out a := by
  rw [(effectDump_result s).1, Store.lookup_fill_out _ _ (by omega)]

/-! ### The bytes of a word of the image (R12) -/

/-- The bytes of a little-endian number are those it was assembled from. -/
theorem leNumber_byte {bytes : List Byte} {j : Nat} {v : Byte} (h : bytes[j]? = some v) :
    leNumber bytes / 2 ^ (8 * j) % 256 = v.toNat := by
  induction bytes generalizing j with
  | nil => simp at h
  | cons b rest ih =>
    have hb := b.isLt
    cases j with
    | zero =>
      obtain rfl : b = v := by simpa using h
      simp only [leNumber, Nat.mul_zero, pow_zero, Nat.div_one]
      omega
    | succ j =>
      have hdrop : leNumber (b :: rest) / 2 ^ 8 = leNumber rest := by
        simp only [leNumber]
        omega
      rw [Nat.mul_succ, Nat.add_comm, pow_add, ← Nat.div_div_eq_div_mul, hdrop]
      exact ih (by simpa using h)

theorem blockByte_block (sp : Space) (a : Nat) {j : Nat} (hj : j < 8) :
    blockByte (sp.block a) j = sp.byte (a + j) := by
  refine BitVec.eq_of_toNat_eq ?_
  rw [blockByte_toNat, Space.block_toNat]
  exact leNumber_byte (by simp [memRead, hj])

/-- After EXTRACT the byte view of the boot code is the region of the image (R171, R172). -/
theorem bcByte_effectExtract {s : State} {a : Nat} (ha : a < 8 * (getBootCnt s).toNat) :
    bcByte (effectExtract s) a = s.img.byte (0x4000 + a) := by
  have hword : getBc (effectExtract s) (a / 8) = imgBootWord s (a / 8) := by
    rw [getBc, lookup_bc_effectExtract (by omega), Option.getD_some]
  rw [bcByte, hword, imgBootWord, blockByte_block _ _ (Nat.mod_lt a (by decide)), Nat.add_assoc,
    Nat.div_add_mod]

/-! ### A success (R237) -/

/-- A command that starts and ends in mode `IDLE` met its requirements and had its effect. -/
theorem effect_of_exec_idle {i : Instr} {s t : State} (h : exec i s = .next t) (hr : i ≠ .reset)
    (hs : s.mode = .idle) (ht : t.mode = .idle) :
    firstFailure (needsOf i s) = none ∧ t = effectOf i s := by
  rcases exec_cases h with ⟨rfl, -⟩ | ⟨-, hm, -⟩ | ⟨-, -, q, -, rfl⟩ | ⟨-, -, hq, rfl⟩
  · exact absurd rfl hr
  · simp [hs] at hm
  · simp at ht
  · exact ⟨hq, rfl⟩

end Sys2Proof.Machine

open Sys2Proof Sys2Proof.Machine

/-- Settles O25: `VALID.BC` decides between the fault and `effectDump`, which writes every byte from its word. -/
theorem dumpWritesEveryByteOfTheBootCode : Obligations.DumpWritesEveryByteOfTheBootCode := by
  refine ⟨decodeWord_encode (i := .dump) trivial, fun s hm => ⟨fun hbc => ?_, exec_dump_not_valid hm⟩⟩
  exact ⟨effectDump s, exec_dump hm hbc, fun a ha => ⟨_, lookup_out_effectDump ha, toNat_bcByte s a⟩,
    fun _ => lookup_out_effectDump_beyond, BitVec.toNat_ofNat _ _, rfl⟩

/-- Settles O36: the byte that DUMP writes is a byte of a word that EXTRACT assembled from the image. -/
theorem dumpAfterExtractReproducesTheImage : Obligations.DumpAfterExtractReproducesTheImage := by
  intro s t hs h ht
  obtain ⟨hneeds, rfl : t = effectExtract s⟩ := effect_of_exec_idle h (by simp) hs ht
  have hcap := bootCnt_le_cap_of_needsExtract hneeds
  refine ⟨effectDump (effectExtract s), exec_dump ht rfl, toNat_outLen_effectDump hcap, fun a ha => ?_⟩
  rw [lookup_out_effectDump ha, bcByte_effectExtract ha]
end

section
/-! CKLOAD and CHECK (R200, R202): their requirements in the order of R242, the embedded checksum that CKLOAD
takes from the boot code, and the slice that CHECK sums. Settles O26, O27, O37. -/

namespace Sys2Proof.Machine

/-! ### CKLOAD (R200) -/

theorem exec_ckload {s : State} (hm : s.mode = .idle) (hbc : s.valid.bc = true) (hlen : 2 ≤ s.bcLen.toNat) :
    exec .ckload s = .next (effectCkload s) :=
  exec_succeeds (by simp) hm (by simp [needsOf, needsCkload, hbc, hlen])

/-- A boot code that is not valid fails the first requirement. -/
theorem exec_ckload_not_valid {s : State} (hm : s.mode = .idle) (hbc : s.valid.bc = false) :
    exec .ckload s = .next (raise .precondition 2#8 0x0B#8 s) :=
  exec_fails (q := ⟨false, .precondition, 2#8⟩) (by simp) hm (by simp [needsOf, needsCkload, hbc])

/-- A boot code of fewer than two words has no word 1. -/
theorem exec_ckload_short {s : State} (hm : s.mode = .idle) (hbc : s.valid.bc = true)
    (hlen : s.bcLen.toNat < 2) : exec .ckload s = .next (raise .precondition 4#8 0x0B#8 s) :=
  exec_fails (q := ⟨false, .precondition, 4#8⟩) (by simp) hm
    (by simp [needsOf, needsCkload, hbc, Nat.not_le.mpr hlen])

/-- Boot-code bytes 14 and 15 are the two highest bytes of word 1: `BC[1][63:48]`. -/
theorem toNat_ckEmb_effectCkload (s : State) :
    (effectCkload s).ckEmb.value.toNat = (getBc s 1).toNat / 2 ^ 48 := by
  have hbound := (getBc s 1).isLt
  have hlow : (bcByte s 14).toNat = (getBc s 1).toNat / 2 ^ 48 % 256 := toNat_bcByte s 14
  have hhigh : (bcByte s 15).toNat = (getBc s 1).toNat / 2 ^ 56 % 256 := toNat_bcByte s 15
  simp only [effectCkload_result, le16_toNat, leNumber, hlow, hhigh]
  omega

/-! ### CHECK (R202) -/

theorem exec_check {s : State} (hm : s.mode = .idle) (hbc : s.valid.bc = true) (hckin : s.valid.ckin = true)
    (hlen : s.ckLen = 0x7F0#32) (hrange : s.ckOff.toNat + 0x7F0 ≤ 8 * s.bcLen.toNat) :
    exec .check s = .next (effectCheck s) :=
  exec_succeeds (by simp) hm (by simp [needsOf, needsCheck, hbc, hckin, hlen, hrange])

/-- A boot code or operands that are not valid fail the first requirement. -/
theorem exec_check_not_valid {s : State} (hm : s.mode = .idle) (hv : (s.valid.bc && s.valid.ckin) = false) :
    exec .check s = .next (raise .precondition 2#8 0x0C#8 s) :=
  exec_fails (q := ⟨false, .precondition, 2#8⟩) (by simp) hm (by simp [needsOf, needsCheck, hv])

/-- A length other than the document's fails the second requirement, wherever the slice lies. -/
theorem exec_check_length {s : State} (hm : s.mode = .idle) (hbc : s.valid.bc = true)
    (hckin : s.valid.ckin = true) (hlen : s.ckLen ≠ 0x7F0#32) :
    exec .check s = .next (raise .precondition 3#8 0x0C#8 s) :=
  exec_fails (q := ⟨false, .precondition, 3#8⟩) (by simp) hm
    (by simp [needsOf, needsCheck, hbc, hckin, hlen])

/-- A slice that ends beyond the boot code fails the third requirement. -/
theorem exec_check_range {s : State} (hm : s.mode = .idle) (hbc : s.valid.bc = true)
    (hckin : s.valid.ckin = true) (hlen : s.ckLen = 0x7F0#32)
    (hrange : 8 * s.bcLen.toNat < s.ckOff.toNat + 0x7F0) :
    exec .check s = .next (raise .precondition 4#8 0x0C#8 s) :=
  exec_fails (q := ⟨false, .precondition, 4#8⟩) (by simp) hm
    (by simp [needsOf, needsCheck, hbc, hckin, hlen, hrange])

theorem checksumMatches_iff (computed embedded : Half) :
    checksumMatches computed embedded = true ↔ computed = embedded := by
  simp only [checksumMatches, decide_eq_true_eq]

/-! ### The slice (R171) -/

theorem length_bcBytes (s : State) (a n : Nat) : (bcBytes s a n).length = n := by simp [bcBytes]

theorem getElem?_bcBytes (s : State) (a : Nat) {n j : Nat} (hj : j < n) :
    (bcBytes s a n)[j]? = some (bcByte s (a + j)) := by simp [bcBytes, hj]

/-- STBLK writes no byte of another word (R177). -/
theorem bcByte_effectStblk {idx j : Nat} (s : State) (h : j / 8 ≠ idx) :
    bcByte (effectStblk idx s) j = bcByte s j := by
  have hword : getBc (effectStblk idx s) (j / 8) = getBc s (j / 8) := by
    simp only [getBc, free, effectStblk_result, effectStblk_frame, Store.lookup_put_other _ _ h]
  simp only [bcByte, hword]

theorem bcBytes_effectStblk_zero {a : Nat} (s : State) (n : Nat) (ha : 8 ≤ a) :
    bcBytes (effectStblk 0 s) a n = bcBytes s a n :=
  List.map_congr_left fun _ _ => bcByte_effectStblk s (by omega)

theorem sliceChecksum_effectStblk_zero {s : State} (h : 8 ≤ s.ckOff.toNat) :
    sliceChecksum (effectStblk 0 s) = sliceChecksum s :=
  congrArg Config.crc16 (bcBytes_effectStblk_zero s _ h)

/-- The record of a fault is no part of the slice. -/
theorem sliceChecksum_raise (k : FaultKind) (info op : Byte) (s : State) :
    sliceChecksum (raise k info op s) = sliceChecksum s := rfl

end Sys2Proof.Machine

open Sys2Proof Sys2Proof.Machine

/-- Settles O26: the two requirements decide between the faults and `effectCkload`, whose two bytes are the top
of word 1. -/
theorem ckloadLoadsTheOperands : Obligations.CkloadLoadsTheOperands := by
  refine ⟨decodeWord_encode (i := .ckload) trivial, fun s hm =>
    ⟨fun hbc hlen => ?_, exec_ckload_not_valid hm, exec_ckload_short hm⟩⟩
  exact ⟨effectCkload s, exec_ckload hm hbc hlen, rfl, toNat_ckEmb_effectCkload s, rfl⟩

/-- Settles O27: the three requirements decide between the faults and `effectCheck`, whose slice is listed byte
by byte. -/
theorem checkComparesTheChecksum : Obligations.CheckComparesTheChecksum := by
  refine ⟨decodeWord_encode (i := .check) trivial, fun s hm =>
    ⟨fun hbc hckin hlen hrange => ?_, exec_check_not_valid hm, exec_check_length hm, exec_check_range hm⟩⟩
  exact ⟨effectCheck s, exec_check hm hbc hckin hlen hrange,
    ⟨bcBytes s s.ckOff.toNat 2032, length_bcBytes _ _ _,
      fun _ hj => ⟨_, getElem?_bcBytes _ _ hj, toNat_bcByte _ _⟩, rfl⟩,
    checksumMatches_iff _ _, rfl⟩

/-- Settles O37: the bytes from 8 on lie in other words than word 0, the one that STBLK 0 writes. -/
theorem storingWordZeroKeepsTheCheckedSlice : Obligations.StoringWordZeroKeepsTheCheckedSlice := by
  intro s t hoff h
  obtain rfl | ⟨k, info, rfl⟩ | rfl := exec_outcomes h
  · rfl
  · exact sliceChecksum_raise _ _ _ s
  · exact sliceChecksum_effectStblk_zero hoff
end

section
/-! The checksum validator and the cipher (R204): neither reads or writes a register of the other. Settles O50. -/

namespace Sys2Proof.Machine

/-- A change of the state that the requirements of a command do not see, and that commutes with fault entry and
with the command's effect, is carried through the command. -/
theorem exec_commutes {i : Instr} {s t : State} (f : State → State) (h : exec i s = .next t)
    (hmode : (f s).mode = s.mode) (hneeds : needsOf i (f s) = needsOf i s)
    (hraise : ∀ k info op, raise k info op (f s) = f (raise k info op s))
    (heffect : effectOf i (f s) = f (effectOf i s)) : exec i (f s) = .next (f t) := by
  obtain ⟨u, hu, rfl⟩ :=
    exec_related (R := fun t u => u = f t) h hmode hneeds rfl hraise fun _ => heffect
  exact hu

/-! ### The registers of the cipher -/

/-- The state with another `KT`, `KC` and `BLK`. -/
abbrev withCipherRegs (m : Store 32) (a b c lo hi : Reg 32) (s : State) : State :=
  { s with kt := m, kc0 := a, kc1 := b, kc2 := c, blkLo := lo, blkHi := hi }

theorem effectCkload_withCipherRegs (m : Store 32) (a b c lo hi : Reg 32) (s : State) :
    effectCkload (withCipherRegs m a b c lo hi s) = withCipherRegs m a b c lo hi (effectCkload s) := rfl

theorem effectCheck_withCipherRegs (m : Store 32) (a b c lo hi : Reg 32) (s : State) :
    effectCheck (withCipherRegs m a b c lo hi s) = withCipherRegs m a b c lo hi (effectCheck s) := rfl

/-- CKLOAD and CHECK answer the same with any other `KT`, `KC` and `BLK`, and leave them alone. -/
theorem exec_withCipherRegs {i : Instr} {s t : State} (m : Store 32) (a b c lo hi : Reg 32)
    (hside : i = .ckload ∨ i = .check) (h : exec i s = .next t) :
    exec i (withCipherRegs m a b c lo hi s) = .next (withCipherRegs m a b c lo hi t) := by
  obtain rfl | rfl := hside
  · exact exec_commutes _ h rfl rfl (fun _ _ _ => rfl) (effectCkload_withCipherRegs m a b c lo hi s)
  · exact exec_commutes _ h rfl rfl (fun _ _ _ => rfl) (effectCheck_withCipherRegs m a b c lo hi s)

/-! ### The registers of the checksum validator -/

/-- The state with other checksum operands and another checksum result. -/
abbrev withChecksumRegs (emb : Reg 16) (o l : Word) (x : Half) (b : Bool) (s : State) : State :=
  { s with ckEmb := emb, ckOff := o, ckLen := l, crcCalc := x, crcMatch := b }

section
variable (emb : Reg 16) (o l : Word) (x : Half) (b : Bool) (s : State)

theorem effectCipher_withChecksumRegs (dir : Dir) :
    effectCipher dir (withChecksumRegs emb o l x b s) = withChecksumRegs emb o l x b (effectCipher dir s) := rfl

theorem effectMkkey_withChecksumRegs :
    effectMkkey (withChecksumRegs emb o l x b s) = withChecksumRegs emb o l x b (effectMkkey s) := rfl

theorem effectLoadkt_withChecksumRegs :
    effectLoadkt (withChecksumRegs emb o l x b s) = withChecksumRegs emb o l x b (effectLoadkt s) := by
  simp only [effectLoadkt]

theorem effectDerive_withChecksumRegs :
    effectDerive (withChecksumRegs emb o l x b s) = withChecksumRegs emb o l x b (effectDerive s) := by
  simp only [effectDerive, derivedKc0_congr (s := s) (s' := withChecksumRegs emb o l x b s) rfl rfl rfl,
    derivedKc1_congr (s := s) (s' := withChecksumRegs emb o l x b s) rfl rfl rfl]

end

/-- The cipher commands answer the same with any other checksum registers, and leave them alone. -/
theorem exec_withChecksumRegs {i : Instr} {s t : State} (emb : Reg 16) (o l : Word) (x : Half) (b : Bool)
    (hside : i = .enc ∨ i = .dec ∨ i = .derive ∨ i = .mkkey ∨ i = .loadkt) (h : exec i s = .next t) :
    exec i (withChecksumRegs emb o l x b s) = .next (withChecksumRegs emb o l x b t) := by
  have carried (hneeds : needsOf i (withChecksumRegs emb o l x b s) = needsOf i s) :=
    exec_commutes (withChecksumRegs emb o l x b) h rfl hneeds fun _ _ _ => rfl
  obtain rfl | rfl | rfl | rfl | rfl := hside
  · exact carried rfl (effectCipher_withChecksumRegs emb o l x b s .enc)
  · exact carried rfl (effectCipher_withChecksumRegs emb o l x b s .dec)
  · exact carried rfl (effectDerive_withChecksumRegs emb o l x b s)
  · exact carried rfl (effectMkkey_withChecksumRegs emb o l x b s)
  · exact carried rfl (effectLoadkt_withChecksumRegs emb o l x b s)

end Sys2Proof.Machine

open Sys2Proof Sys2Proof.Machine

/-- Settles O50: the requirements and the effects of each side commute with a change of the other side's
registers. -/
theorem checksumAndCipherDoNotInteract : Obligations.ChecksumAndCipherDoNotInteract :=
  ⟨fun _ _ _ m a b c lo hi hside h => exec_withCipherRegs m a b c lo hi hside h,
    fun _ _ _ emb o l x b hside h => exec_withChecksumRegs emb o l x b hside h⟩
end

section
/-! RESET and mode `FAULTED` (R215, R219, R260): what the two resetting actions answer, and that in mode
`FAULTED` nothing else moves the engine. Settles O13 and O43. -/

namespace Sys2Proof.Machine

/-! ### Reset (R42, R215) -/

theorem controlAtReset_resetEngine (s : State) : controlAtReset (resetEngine s) :=
  resetStateIsAsTheTableSays.1

theorem dataUnspecified_resetEngine (s : State) : dataUnspecified (resetEngine s) :=
  resetStateIsAsTheTableSays.2

/-- Both resetting actions answer one state (R215, R260). -/
theorem step_resets {s : State} {a : HostAction} {rest : List HostAction} (hp : s.pending = a :: rest)
    (ha : resets a = true) : step s = .next (resetEngine (accept rest s)) := by
  obtain rfl | rfl := resets_iff.mp ha
  · simp [step, hp, serve]
  · rw [step_command hp (decodeWord_eq_reset_iff.mpr rfl), exec_reset, resetEngine_noteInputs]

/-! ### Mode `FAULTED` (R219) -/

theorem noteInputs_faulted {i : Instr} {s : State} (hm : s.mode = .faulted) : noteInputs i s = s := by
  simp [noteInputs, hm]

theorem hostWrite_faulted {r : HostReg} {v : Word} {s : State} (hm : s.mode = .faulted) :
    hostWrite r v s = s := by simp [hostWrite, hm]

theorem illegalCommand_faulted {w : Word} {s : State} (hm : s.mode = .faulted) :
    illegalCommand w s = .next s := by simp [illegalCommand, hm]

/-- In mode `FAULTED` a step that is no reset moves nothing of the engine: commands and register writes are
ignored, and reads and supplies reach no register. -/
theorem step_faulted {s t : State} (hm : s.mode = .faulted) (h : step s = .next t) (hreset : ¬servesReset s) :
    t = { s with
      img := t.img, key := t.key, pending := t.pending, readData := t.readData, draws := t.draws } := by
  rcases step_cases h with ⟨-, rfl⟩ | ⟨a, rest, hp, hcase⟩
  · rfl
  rw [servesReset_iff hp] at hreset
  have hma : (accept rest s).mode = .faulted := hm
  rcases hcase with ⟨w, i, rfl, hd, hexec⟩ | ⟨w, e, -, -, hill⟩ | ⟨o, r, v, -, -, -, -, rfl⟩ |
    ⟨o, r, -, -, -, rfl⟩ | ⟨o, -, rfl⟩ | ⟨rfl, -⟩ | ⟨bytes, -, -, rfl⟩ | ⟨bytes, -, -, rfl⟩
  · have hr : i ≠ .reset := by
      rintro rfl
      exact hreset (resets_iff.mpr (.inr (by rw [decodeWord_eq_reset_iff.mp hd])))
    rw [noteInputs_faulted hma, exec_faulted hma hr] at hexec
    cases hexec
    rfl
  · rw [illegalCommand_faulted hma] at hill
    cases hill
    rfl
  · rw [hostWrite_faulted hma]
    rfl
  · rfl
  · rfl
  · exact absurd rfl hreset
  · rfl
  · rfl

end Sys2Proof.Machine

open Sys2Proof Sys2Proof.Machine

/-- Settles O43: `step_resets` for the two actions that reset, `step_faulted` for every other step. -/
theorem onlyResetLeavesTheFaultedMode : Obligations.OnlyResetLeavesTheFaultedMode := by
  refine fun s t hm h => ⟨fun rest hp => ?_, fun hno => step_faulted hm h ?_⟩
  · have hreset : step s = .next (resetEngine (accept rest s)) := by
      obtain hp | hp := hp
      · exact step_resets hp rfl
      · exact step_resets hp rfl
    exact Host.Outcome.next.inj (h.symm.trans hreset)
  · rintro ⟨rest, hp | hp⟩
    · exact (hno rest).1 hp
    · exact (hno rest).2 hp

/-- Settles O13: RESET answers `resetEngine`, whose registers are those of `State.reset`. -/
theorem resetCommandResetsInEitherMode : Obligations.ResetCommandResetsInEitherMode :=
  ⟨decodeWord_eq_reset_iff.mpr rfl,
    fun s => ⟨resetEngine s, exec_reset s, controlAtReset_resetEngine s, dataUnspecified_resetEngine s,
      rfl, rfl, rfl, rfl, rfl⟩,
    fun _ _ hm hr => exec_faulted hm hr⟩
end

section
/-! The host's register accesses (R217, R218, R220): the step of a mapped 32-bit read and of a mapped 32-bit
write, and the refusal of every other one. Settles O11, O52 and O54. -/

namespace Sys2Proof.Machine

/-- The key-table window of R33: entry `i` stands at `0x1000 + 4 * i`. -/
theorem mappedReg_ktEntry {i : Nat} (hi : i < Config.ktEntries) :
    mappedReg (0x1000 + 4 * i) = some (.kt i) := by
  unfold mappedReg
  split
  case h_22 =>
    rw [if_pos (by omega), Nat.add_sub_cancel_left, Nat.mul_div_cancel_left i (by decide)]
  all_goals omega

/-- R220: an access of another width, misaligned or unmapped is not resolved. -/
theorem isOk_resolveAccess_unmapped {width o : Nat}
    (h : width ≠ 32 ∨ o % 4 ≠ 0 ∨ (0x054 ≤ o ∧ o ≤ 0xFFF) ∨ 0x2048 ≤ o) :
    (resolveAccess width o).isOk = false := by
  cases hr : resolveAccess width o with
  | error e => rfl
  | ok r =>
    obtain ⟨hwidth, halign, hmap⟩ := resolveAccess_ok.mp hr
    have hrange := mappedReg_range hmap
    simp only [Config.ktEntries] at hrange
    omega

theorem hostWrite_idle {r : HostReg} {v : Word} {s : State} (hm : s.mode = .idle) :
    hostWrite r v s = writeReg r v s := by simp [hostWrite, hm]

theorem step_write {s : State} {o : Nat} {r : HostReg} {v : Word} {rest : List HostAction}
    (hp : s.pending = .write 32 o v :: rest) (ho : o % 4 = 0) (hr : mappedReg o = some r) (hcmd : r ≠ .cmd) :
    step s = .next (hostWrite r v (accept rest s)) := by
  have hok := resolveAccess_ok.mpr ⟨rfl, ho, hr⟩
  cases r with
  | cmd => exact absurd rfl hcmd
  | _ => simp [step, hp, serve, hok]

end Sys2Proof.Machine

open Sys2Proof Sys2Proof.Machine

/-- Settles O11: such an access is not resolved, so `serve` refuses it and the step with it. -/
theorem unmappedAccessesAreRefused : Obligations.UnmappedAccessesAreRefused := by
  intro s rest width o v h
  have hunresolved := isOk_resolveAccess_unmapped h
  obtain ⟨e, hread⟩ := (serve_read_refuses_iff width o _).mpr hunresolved
  obtain ⟨e', hwrite⟩ := (serve_write_refuses_iff width o v _).mpr hunresolved
  exact ⟨⟨e, step_refused rfl hread⟩, ⟨e', step_refused rfl hwrite⟩⟩

/-- Settles O52: each mapped offset is read through `readReg` of its register in the map of R33. -/
theorem hostReadsReturnTheRegisters : Obligations.HostReadsReturnTheRegisters := by
  rintro s u rest rfl rd hrd
  have read (r : HostReg) {o : Nat} (ho : o % 4 = 0) (hr : mappedReg o = some r) :
      rd o = .next (returnRead (readReg r (accept rest s)) (accept rest s)) :=
    (hrd o).trans (step_read rfl ho hr)
  exact ⟨read .cmd rfl rfl, read .status rfl rfl, read .valid rfl rfl, read .fault rfl rfl,
    read .blkLo rfl rfl, read .blkHi rfl rfl, read .kc0 rfl rfl, read .kc1 rfl rfl, read .kc2 rfl rfl,
    read .gamecode rfl rfl, read .bootOff rfl rfl, read .bootCnt rfl rfl,
    read .title0 rfl rfl, read .title1 rfl rfl, read .title2 rfl rfl, read .bcLen rfl rfl,
    read .ckEmb rfl rfl, read .ckOff rfl rfl, read .ckLen rfl rfl, read .crcCalc rfl rfl,
    read .outLen rfl rfl, fun i hi => read (.kt i) (by omega) (mappedReg_ktEntry hi)⟩

/-- Settles O54: each mapped offset but `CMD`'s is written through `writeReg` of its register in the map
of R33; the table entry is one cell of its store. -/
theorem hostWritesReachTheirCell : Obligations.HostWritesReachTheirCell := by
  rintro s u rest v hm rfl wr hwr
  have write (r : HostReg) {o : Nat} (ho : o % 4 = 0) (hr : mappedReg o = some r)
      (hcmd : r ≠ .cmd := by simp) : wr o = .next (writeReg r v (accept rest s)) :=
    (hwr o).trans ((step_write rfl ho hr hcmd).trans (congrArg _ (hostWrite_idle hm)))
  have bcLen := write .bcLen (o := 0x03C) rfl rfl
  exact ⟨(hwr 0x000).trans (step_write_cmd rfl), write .status rfl rfl, write .fault rfl rfl,
    write .crcCalc rfl rfl, write .outLen rfl rfl, write .valid rfl rfl,
    write .blkLo rfl rfl, write .blkHi rfl rfl, write .kc0 rfl rfl, write .kc1 rfl rfl, write .kc2 rfl rfl,
    write .gamecode rfl rfl, write .bootOff rfl rfl, write .bootCnt rfl rfl,
    write .title0 rfl rfl, write .title1 rfl rfl, write .title2 rfl rfl,
    fun hcap => bcLen.trans (congrArg _ (if_pos hcap)),
    fun hcap => bcLen.trans (congrArg _ (if_neg (Nat.not_le.mpr hcap))),
    write .ckEmb rfl rfl, write .ckOff rfl rfl, write .ckLen rfl rfl,
    fun i hi => ⟨_, write (.kt i) (by omega) (mappedReg_ktEntry hi), Store.lookup_put_same _ _ _,
      fun _ hj => Store.lookup_put_other _ v hj, rfl⟩⟩
end

section
/-! Fault entry and the states it leaves (R230, R236, R237), the two resets (R42, R260), the answer to every
command (R221, R273) and the wait for the host (R246). Settles O9, O14, O39, O40 and O41. -/

namespace Sys2Proof.Machine

/-! ### The record (R36, R230, R236) -/

/-- No kind of fault has the code 0, which the record holds at reset (R42, R230). -/
theorem FaultKind.code_ne_zero (k : FaultKind) : k.code ≠ 0#2 := by cases k <;> decide

theorem toNat_faultWord_raise (k : FaultKind) (info op : Byte) (s : State) :
    (faultWord (raise k info op s).fault).toNat = 65536 * op.toNat + 256 * info.toNat + k.code.toNat := by
  obtain ⟨-, -, hfields⟩ := statusValidAndFaultFields (raise k info op s)
  rw [hfields]
  simp only [raise_fault]
  omega

/-! ### Where mode `FAULTED` is entered (R236, R237) -/

/-- The effect of a command never enters mode `FAULTED`: RESET leaves it, and the others keep the mode. -/
theorem mode_effectOf_of_idle {s : State} (i : Instr) (hm : s.mode = .idle) : (effectOf i s).mode = .idle := by
  cases i with
  | reset => rfl
  | _ => simpa [effectOf] using hm

/-- R237: a command enters mode `FAULTED` by fault entry from the state before it, under its own opcode. -/
theorem exec_enters_faulted {i : Instr} {s t : State} (hm : s.mode = .idle) (h : exec i s = .next t)
    (ht : t.mode = .faulted) : ∃ k info, t = raise k info i.opcode s := by
  obtain rfl | hraise | rfl := exec_outcomes h
  · simp [hm] at ht
  · exact hraise
  · simp [mode_effectOf_of_idle i hm] at ht

theorem noteInputs_eq_withMarks (i : Instr) (s : State) :
    noteInputs i s = { s with imgUsed := (noteInputs i s).imgUsed, keyUsed := (noteInputs i s).keyUsed } := by
  unfold noteInputs
  split <;> rfl

/-- R236: a word written to `CMD` enters mode `FAULTED` by fault entry under its bits 7:0, whether a command
faults or the word is illegal; beside that the step sets marks on used inputs at most. -/
theorem runCommand_enters_faulted {w : Word} {s t : State} (hm : s.mode = .idle)
    (h : runCommand w s = .next t) (ht : t.mode = .faulted) :
    ∃ k info, t = raise k info (opField w) { s with imgUsed := t.imgUsed, keyUsed := t.keyUsed } := by
  unfold runCommand at h
  split at h
  next i hd =>
    obtain ⟨-, hop, -⟩ := fields_of_decodeWord hd
    obtain ⟨k, info, rfl⟩ := exec_enters_faulted ((noteInputs_mode i s).trans hm) h ht
    exact ⟨k, info, by rw [hop]; exact congrArg (raise k info i.opcode) (noteInputs_eq_withMarks i s)⟩
  next =>
    obtain ⟨hfaulted, -⟩ | ⟨-, rfl⟩ := illegalCommand_cases h
    · simp [hm] at hfaulted
    · exact ⟨.precondition, 1#8, rfl⟩

end Sys2Proof.Machine

open Sys2Proof Sys2Proof.Machine

/-- Settles O40: the record is an append of its fields, and `runCommand_enters_faulted` says how a step on a
word written to `CMD` takes a fault. -/
theorem faultEntryWritesTheRecord : Obligations.FaultEntryWritesTheRecord := by
  refine ⟨fun info op s => ⟨toNat_faultWord_raise .truncatedInput info op s,
    toNat_faultWord_raise .unsupportedLayout info op s, toNat_faultWord_raise .precondition info op s,
    fun _ => rfl⟩, fun s t rest w hm hp h ht => ?_⟩
  rw [step_write_cmd hp] at h
  obtain ⟨k, info, hraise⟩ := runCommand_enters_faulted (s := accept rest s) hm h ht
  have hop : t.fault.op = opField w := by rw [hraise, raise_fault]
  rw [hop]
  exact ⟨toNat_opField w, k, info, hraise⟩

/-- Settles O41: the command has gone through fault entry, and no kind has the code 0. -/
theorem faultLeavesOnlyTheRecord : Obligations.FaultLeavesOnlyTheRecord := by
  intro i s t hm h ht
  obtain ⟨k, info, rfl⟩ := exec_enters_faulted hm h ht
  exact ⟨rfl, k.code_ne_zero, rfl⟩

/-- Settles O9. -/
theorem engineWaitsForTheHost : Obligations.EngineWaitsForTheHost := by
  intro s hp
  simp [step, hp]

/-- Settles O14: the reset input and RESET both answer `resetEngine`. -/
theorem hardwareResetEqualsResetCommand : Obligations.HardwareResetEqualsResetCommand :=
  fun s rest hp => ⟨resetEngine (accept rest s), step_resets hp rfl, exec_reset _,
    controlAtReset_resetEngine _, dataUnspecified_resetEngine _, rfl⟩

/-- Settles O39. -/
theorem everyCommandAnswersANextState : Obligations.EveryCommandAnswersANextState := exec_answers
end
